-- ==== Sys2Proof/Word.lean ====
section
/-!
DEFINITION. The word types of the block and nothing else.

Rule R7 of spec/00_scope.md: `u4`, `u8`, `u16`, `u32` are unsigned values of that many bits and arithmetic is over
`Int` unless a width is written.
-/

namespace Sys2Proof

/-- `u4`, a nibble on the LCD data lines (R7, R66). -/
abbrev Nibble := BitVec 4

/-- `u8`, a register, a bus byte or a packet byte (R7). -/
abbrev Byte := BitVec 8

/-- `u32`, a duration in milliseconds (R27, R29). -/
abbrev Word32 := BitVec 32

end Sys2Proof
end

