-- ==== Sys2Proof/Config.lean ====
section
/-!
DEFINITION. What an implementation fixes: the constants of rule R4 and the parameters of rule R5 with the constraints
of rule R6 (spec/00_scope.md).

The source names the parameters of R5 and gives them no value, so the machine carries them as a value of `Config` and
every statement is about any value that meets `Config.Ok`.
`Config.p0` is the spec's own default set P0, which the spec marks as general knowledge (93 G1 to G8).
-/

namespace Sys2Proof

/-- R4: `DDRAM_WIDTH`, the modulus of the cached DDRAM address. -/
def ddramWidth : Nat := 80

/-- R4: `MAX_COL`, the upper clamp of a column operand. -/
def maxCol : Int := 39

/-- R4: `MAX_LINES`, the number of rows. -/
def maxLines : Nat := 2

/-- R4: `VISIBLE_COLS`; no rule depends on it. -/
def visibleCols : Nat := 16

/-- R4: `GLYPH_COUNT`, custom glyph locations 0..7. -/
def glyphCount : Nat := 8

/-- R4: `GLYPH_ROWS`, bytes per custom glyph. -/
def glyphRows : Nat := 8

/-- R4: `SW_IDLE`, the switch value with no switch pressed. -/
def swIdle : Byte := 255

/-- R4: `SW_COUNT`, the number of switches. -/
def swCount : Nat := 8

/-- R4: `INTERVAL_DEFAULT`, in milliseconds. -/
def intervalDefault : Word32 := 100

/-- R5: the parameters the source names and gives no value for.
Bit indices and the shift are `Nat`, bytes and masks are bit vectors, durations are microseconds. -/
structure Config where
  pinEn        : Nat
  pinRs        : Nat
  pinBl        : Nat
  cmdClear     : Byte
  cmdHome      : Byte
  cmdEntryMode : Byte
  cmdDispCtrl  : Byte
  cmdFuncSet   : Byte
  cmdSetCgram  : Byte
  cmdSetDdram  : Byte
  emId         : Byte
  emS          : Byte
  dcD          : Byte
  dcC          : Byte
  dcB          : Byte
  fsDl         : Byte
  fsN          : Byte
  fsF          : Byte
  initFs       : Byte
  initDc       : Byte
  initEm       : Byte
  nibReset8    : Nibble
  nibTo4bit    : Nibble
  cgramShift   : Nat
  newline      : Byte
  tPulse       : Nat
  tSettle      : Nat
  tClear       : Nat
  tSetup0      : Nat
  tSetup1      : Nat
  tSetup2      : Nat
  regPb        : Byte
  regSw        : Byte
  hwAddr       : Nat
  deriving DecidableEq, Repr

/-- R5, column "default P0": the parameter set of the spec's test vectors.
PRESUMED (by the spec itself, from general knowledge, 93 G1 to G8); unsafe for a claim that names a value of it,
see notes/assumptions/1.md. -/
def Config.p0 : Config where
  pinEn        := 4
  pinRs        := 6
  pinBl        := 7
  cmdClear     := 0x01
  cmdHome      := 0x02
  cmdEntryMode := 0x04
  cmdDispCtrl  := 0x08
  cmdFuncSet   := 0x20
  cmdSetCgram  := 0x40
  cmdSetDdram  := 0x80
  emId         := 0x02
  emS          := 0x01
  dcD          := 0x04
  dcC          := 0x02
  dcB          := 0x01
  fsDl         := 0x10
  fsN          := 0x08
  fsF          := 0x04
  initFs       := 0x08
  initDc       := 0x00
  initEm       := 0x02
  nibReset8    := 0x3
  nibTo4bit    := 0x2
  cgramShift   := 3
  newline      := 0x0A
  tPulse       := 1
  tSettle      := 40
  tClear       := 2600
  tSetup0      := 15000
  tSetup1      := 5000
  tSetup2      := 1000
  regPb        := 0x13
  regSw        := 0x12
  hwAddr       := 0

/-- The masks a cached flag byte may hold (R20, column "legal values"). -/
def Config.emMask (c : Config) : Byte := c.emId ||| c.emS
def Config.dcMask (c : Config) : Byte := c.dcD ||| c.dcC ||| c.dcB
def Config.fsMask (c : Config) : Byte := c.fsDl ||| c.fsN ||| c.fsF

/-- A mask that is one single bit. -/
abbrev SingleBit (m : Byte) : Prop := ∃ i < 8, m = 1#8 <<< i

/-- R6 a: three different bit indices, all in 4..7. -/
abbrev Config.PinsOk (c : Config) : Prop :=
  4 ≤ c.pinEn ∧ c.pinEn < 8 ∧ 4 ≤ c.pinRs ∧ c.pinRs < 8 ∧ 4 ≤ c.pinBl ∧ c.pinBl < 8 ∧
    c.pinEn ≠ c.pinRs ∧ c.pinEn ≠ c.pinBl ∧ c.pinRs ≠ c.pinBl

/-- R6 b, c: the order constraints on the delays. -/
abbrev Config.DelaysOk (c : Config) : Prop :=
  c.tSettle < c.tClear ∧ c.tSetup1 < c.tSetup0 ∧ c.tSetup2 < c.tSetup1 ∧ 0 < c.tSetup2

/-- R6 d, and R20's column "legal values": the flag bytes INIT loads are subsets of their masks. -/
abbrev Config.InitOk (c : Config) : Prop :=
  c.initFs &&& c.fsDl = 0 ∧ c.initFs &&& c.fsN = c.fsN ∧
    c.initFs &&& ~~~c.fsMask = 0 ∧ c.initDc &&& ~~~c.dcMask = 0 ∧ c.initEm &&& ~~~c.emMask = 0

/-- R6 e: the set-address command bytes are injective on the addresses they carry, and R5's range of the shift. -/
abbrev Config.AddressesOk (c : Config) : Prop :=
  (∀ a < 80, ∀ b < 80, c.cmdSetDdram ||| BitVec.ofNat 8 a = c.cmdSetDdram ||| BitVec.ofNat 8 b → a = b) ∧
    (∀ l < 8, ∀ k < 8, c.cmdSetCgram ||| (BitVec.ofNat 8 l <<< c.cgramShift) =
      c.cmdSetCgram ||| (BitVec.ofNat 8 k <<< c.cgramShift) → l = k) ∧ c.cgramShift ≤ 4

/-- R6 f: every flag mask is a single bit, disjoint from its command base and from the other masks of its byte. -/
abbrev Config.MasksOk (c : Config) : Prop :=
  SingleBit c.emId ∧ SingleBit c.emS ∧ SingleBit c.dcD ∧ SingleBit c.dcC ∧ SingleBit c.dcB ∧
    SingleBit c.fsDl ∧ SingleBit c.fsN ∧ SingleBit c.fsF ∧
    c.emId &&& c.emS = 0 ∧ c.dcD &&& c.dcC = 0 ∧ c.dcD &&& c.dcB = 0 ∧ c.dcC &&& c.dcB = 0 ∧
    c.fsDl &&& c.fsN = 0 ∧ c.fsDl &&& c.fsF = 0 ∧ c.fsN &&& c.fsF = 0 ∧
    c.cmdEntryMode &&& c.emMask = 0 ∧ c.cmdDispCtrl &&& c.dcMask = 0 ∧ c.cmdFuncSet &&& c.fsMask = 0

/-- R6: the constraints every parameter set must meet. -/
structure Config.Ok (c : Config) : Prop where
  pins      : c.PinsOk
  delays    : c.DelaysOk
  initial   : c.InitOk
  addresses : c.AddressesOk
  masks     : c.MasksOk

end Sys2Proof
end

