-- ==== Sys2Proof/Machine/State.lean ====
section
/-!
DEFINITION. The state of the block as plain data (spec/10_state.md), its environment's state behind the consumed
register interface, the model's own bookkeeping (positions of operations in flight, event trace, schedule), the state
after reset, and the reasons a step can stop.
-/

namespace Sys2Proof.Machine

/-- R276: the two contexts of the agent HOST that can each have one operation in flight. -/
inductive Ctx where
  /-- the application -/
  | app
  /-- the thread a dispatched handler runs on, live only between `DISP` and `HRET` -/
  | handler
  deriving DecidableEq, Repr

/-- R30: the agent running an LCD-touching operation: HOST (the application), POLLT (through a handler's host
operations) or OFFT. -/
inductive Agent where
  | host
  | pollt
  | offt
  deriving DecidableEq, Repr

/-- The operation or event named in `SEQ` and in a `raise` (R30, R261): the LCD-touching ones, and TICK. -/
inductive OpName where
  | init
  | write
  | setcur
  | clear
  | home
  | dispon
  | dispoff
  | curon
  | curoff
  | blinkon
  | blinkoff
  | blon
  | bloff
  | ascron
  | ascroff
  | ltr
  | rtl
  | storeg
  | writeg
  | swrite
  | swritet
  | sdisp
  | sbl
  | expire
  | tick
  deriving DecidableEq, Repr

/-- R30: `SEQ`, the sequencer position, this hardware's program counter. -/
inductive Seq where
  | idle
  | busy (a : Agent) (op : OpName) (n : Nat)
  deriving DecidableEq, Repr

/-- R261: the fault codes. -/
inductive FaultCode where
  | ioFault
  | handlerFault
  | deviceNotOpen
  | concurrentLcd
  deriving DecidableEq, Repr

/-- R266: the reasons of a refusal. -/
inductive Reason where
  | badOpcode
  | badLength
  | badOperand
  | halted
  deriving DecidableEq, Repr

/-- R96: what an operation answers its issuer. -/
inductive Response where
  | ok (value : Byte)
  | refused (reason : Reason)
  | fault (code : FaultCode)
  deriving DecidableEq, Repr

/-- R60 a: the two expander registers the block touches. -/
inductive Reg where
  | pb
  | sw
  deriving DecidableEq, Repr

/-- R320: the delays, by name; their durations are parameters and change no state (R319). -/
inductive Wait where
  | pulse
  | settle
  | clear
  | setup0
  | setup1
  | setup2
  deriving DecidableEq, Repr

/-- R9: the event alphabet. A response names the context it goes to (R271 "to the context that issued it"). -/
inductive Event where
  | rd (r : Reg) (v : Byte)
  | wr (r : Reg) (v : Byte)
  | bw (r : Reg) (i : Nat) (b : Bool)
  | dly (t : Wait)
  | disp (h : Byte)
  | hret (ok : Bool)
  | resp (dest : Ctx) (r : Response)
  deriving DecidableEq, Repr

/-- R261, column "information carried by the raise": kept in no register of the block, here for the reader of a run. -/
inductive Raised where
  | ioFault (op : OpName) (n : Nat)
  | handlerFault (h : Byte)
  | deviceNotOpen (op : OpName) (n : Nat)
  | concurrentLcd (op inFlight : OpName)
  deriving DecidableEq, Repr

/-- Where a TICK in flight stands between two of its events (R216, R303). -/
inductive TickPhase where
  /-- no tick is in flight -/
  | idle
  /-- `RD(SW, v)` has happened -/
  | sampled (v : Byte)
  /-- `DISP(h)` has happened; held until the host's `HRET` (R218) -/
  | inHandler (h : Byte)
  /-- `HRET(ok)` has happened -/
  | returned (h : Byte) (ok : Bool)
  deriving DecidableEq, Repr

/-- R260 c: an operation held on `TICKBUSY = 0` (R213, R215). -/
inductive Held where
  | pollstop
  | setint (ms : Word32)
  deriving DecidableEq, Repr

/-- One step that an agent or the environment takes (R10, R268, R323).
There is none in which anything but the block writes the latch `PB`, and none for a register access that never completes:
R323 assumes both away and says that this errs toward proving, notes/assumptions/7.md. -/
inductive Act where
  /-- HOST delivers a packet in a context (R90) -/
  | packet (c : Ctx) (bytes : List Byte)
  /-- POLLT takes its next step: a firing of the poll timer, or the tick in flight goes on; `readOk` is the answer to
  the register read such a step may make (R262) -/
  | pollt (readOk : Bool)
  /-- ENV reports the handler's completion (R101) -/
  | hret (ok : Bool)
  /-- OFFT: the auto-off timer elapses (R244) -/
  | offt
  /-- HOST: the operation held in a context takes its next step (R213, R215) -/
  | resume (c : Ctx)
  /-- ENV: the switch lines change (R33 b) -/
  | switches (v : Byte)
  /-- ENV: the open step of R301, successful or not -/
  | openDevice (ok : Bool)
  /-- ENV: the device is closed (R301, U29) -/
  | closeDevice
  /-- ENV: `RESET`, with the board's power-on or of the block alone (R300, R318) -/
  | reset (powerOn : Bool)
  deriving DecidableEq, Repr

/-- What surrounds one event of the LCD-touching activity in flight: whether its register access fails (R262), and the
steps other agents take after it, before the activity's next event (R270, R303). -/
structure Slot where
  fails : Bool
  after : List Act
  deriving DecidableEq, Repr

/-- One turn of the schedule: a step, and, for a step that runs LCD-touching events, what is woven between them
(past the end of the list: no access fails and nothing intervenes). -/
structure Turn where
  act   : Act
  weave : List Slot
  deriving DecidableEq, Repr

/-- R28: the handler map as a list of (address, handler id) cells; an address that is not listed holds `none`. -/
abbrev Memory := List Host.Cell

/-- The machine state. -/
structure State where
  /-- the parameters of R5; no step changes them -/
  cfg           : Config
  /-- R21: `ADDR`, the cached DDRAM address -/
  addr          : Byte
  /-- R22: `ROW` -/
  row           : Byte
  /-- R23: `EM`, the cached entry-mode flags -/
  em            : Byte
  /-- R25: `FS`, the cached function-set flags -/
  fs            : Byte
  /-- R24: `DC`, the cached display-control flags -/
  dc            : Byte
  /-- R27: `LAST`, the last observed switch value -/
  last          : Byte
  /-- R27: `INTERVAL`, milliseconds -/
  interval      : Word32
  /-- R27: `RUNNING`, Polling when set -/
  running       : Bool
  /-- R28: `MAP` -/
  map           : Memory
  /-- R29: `DISPLAY_ON` -/
  displayOn     : Bool
  /-- R29: `BACKLIGHT_ON` -/
  backlightOn   : Bool
  /-- R29: `TIMEOUT_ACTIVE` -/
  timeoutActive : Bool
  /-- R29: `TIMEOUT`, milliseconds -/
  timeout       : Word32
  /-- R30: `SEQ` -/
  seq           : Seq
  /-- R31: `LOCK`, 1 while a handler runs -/
  lock          : Bool
  /-- R31: `TICKBUSY` -/
  tickBusy      : Bool
  /-- R31: `EXPBUSY` -/
  expBusy       : Bool
  /-- R32: `FAULT`, the sticky fault record -/
  fault         : Option FaultCode
  /-- R32: `HALTED` -/
  halted        : Bool
  /-- R33 a: `PB`, the environment's output latch of port B -/
  pb            : Byte
  /-- R33 b: `SW`, the switch lines -/
  sw            : Byte
  /-- R36: `DEVOPEN` -/
  devOpen       : Bool
  /-- model: where the tick in flight stands (R216) -/
  tick          : TickPhase
  /-- model: the operation the application context is held in (R213, R215) -/
  appWait       : Option Held
  /-- model: the operation the handler context is held in (R213, R215) -/
  handlerWait   : Option Held
  /-- model: an INIT has completed since `RESET` (R302, R324) -/
  initDone      : Bool
  /-- model: the context whose packet is executed (R276) -/
  issuer        : Ctx
  /-- R9: the event trace -/
  trace         : List Event
  /-- R261: the information carried by every `raise` so far -/
  raises        : List Raised
  /-- model: what is woven into the activity in flight (R262, R303) -/
  weave         : List Slot
  /-- model: the turns still to come (R270) -/
  agenda        : List Turn
  deriving DecidableEq, Repr

/-- The state right after reset (R35, R300).
`TIMEOUT` and `SW` have no reset value in the spec: 0 and 255 are DESIGN CHOICEs, unsafe, notes/assumptions/3.md and 4.md;
the parameters are P0, PRESUMED, unsafe, notes/assumptions/1.md. -/
def State.reset : State where
  cfg           := Config.p0
  addr          := 0
  row           := 0
  em            := 0
  fs            := 0
  dc            := 0
  last          := swIdle
  interval      := intervalDefault
  running       := false
  map           := []
  displayOn     := false
  backlightOn   := false
  timeoutActive := false
  timeout       := 0
  seq           := .idle
  lock          := false
  tickBusy      := false
  expBusy       := false
  fault         := none
  halted        := false
  pb            := 0
  sw            := 255
  devOpen       := false
  tick          := .idle
  appWait       := none
  handlerWait   := none
  initDone      := false
  issuer        := .app
  trace         := []
  raises        := []
  weave         := []
  agenda        := []

/-- What the spec says no run contains (R323 "assumed never to happen", U31 "stuck by construction").
No instruction raises one: they name a step the host or the environment must not take. The model stops there, which is
safe for a claim about one step; a claim about whole runs errs toward proving, as R323 says, notes/assumptions/7.md.
The spec's own faults (R261) are no member of this type: they are next states with `FAULT` written. -/
inductive Fault where
  /-- raised by a packet from a context whose operation has not answered; safe (the model stops, the real host's second
  call is not described) -/
  | secondPacket (c : Ctx)
  /-- raised by a packet in the handler context while no handler runs (R276); safe -/
  | noHandlerContext
  /-- raised by an `HRET` with no `DISP` outstanding; safe -/
  | strayHandlerReturn
  /-- raised by an `HRET` while an operation the handler issued has not answered (R323 "the issuer is blocked until
  the response"); safe -/
  | handlerStillBlocked
  /-- raised by a close of the device while an operation or callback is in flight; safe -/
  | closeInFlight
  deriving DecidableEq, Repr

/-- Why an instruction has no meaning in this model. The spec's own refusals (R266) are no member of this type: they
are next states that answer `REFUSED`. -/
inductive Refusal where
  /-- raised by `exec` for an instruction that is not modelled yet; safe (the model stops) -/
  | notModelled (mnemonic : String)
  deriving DecidableEq, Repr

end Sys2Proof.Machine
end

