-- ==== Sys2Proof/Machine/Ops.lean ====
section
/-!
DEFINITION. The named operations over registers, port bits, the handler map and the trace; the response and the
refusal (R96, R266); fault entry as one operation (R271); the start of an LCD-touching operation (R30, R265); reset (R300).
-/

namespace Sys2Proof.Machine

/-! ### Codes -/

/-- R261, column "code". -/
def faultNumber : FaultCode → Byte
  | .ioFault => 1
  | .handlerFault => 2
  | .deviceNotOpen => 3
  | .concurrentLcd => 4

/-- R266, column "code". -/
def reasonNumber : Reason → Byte
  | .badOpcode => 1
  | .badLength => 2
  | .badOperand => 3
  | .halted => 4

/-- R96: the two bytes `[status][value]` of a response. -/
def responseBytes : Response → List Byte
  | .ok v => [0x00, v]
  | .refused r => [0x01, reasonNumber r]
  | .fault f => [0x02, faultNumber f]

/-- R261: the code `FAULT` records for a raise. -/
def raisedCode : Raised → FaultCode
  | .ioFault _ _ => .ioFault
  | .handlerFault _ => .handlerFault
  | .deviceNotOpen _ _ => .deviceNotOpen
  | .concurrentLcd _ _ => .concurrentLcd

/-! ### Bits of port B (R62, R64, R66) -/

/-- R64: `(PB & ~(1 << i)) | (b << i)`. -/
def setBit (pb : Byte) (i : Nat) (b : Bool) : Byte :=
  (pb &&& ~~~(1#8 <<< i)) ||| (if b then 1#8 <<< i else 0#8)

/-- `v[i]`. -/
def bitOf (pb : Byte) (i : Nat) : Bool := pb.getLsbD i

/-- `v[7:4]`, sent first (R66). -/
def highNibble (v : Byte) : Nibble := v.extractLsb' 4 4

/-- `v[3:0]`. -/
def lowNibble (v : Byte) : Nibble := v.extractLsb' 0 4

/-- R132: `(p & 0xF0) | n`. -/
def putNibble (p : Byte) (n : Nibble) : Byte := (p &&& 0xF0#8) ||| n.setWidth 8

/-! ### The handler map (R28) -/

/-- `MAP[a]`; an address that is not listed holds `none`. -/
def Memory.read : Memory → Nat → Option Byte
  | [], _ => none
  | (b, h) :: rest, a => if a = b then some h else Memory.read rest a

/-- `MAP[a] <- some h`, keeping the addresses strictly rising. -/
def Memory.insert : Memory → Nat → Byte → Memory
  | [], a, h => [(a, h)]
  | (b, k) :: rest, a, h =>
    if a < b then (a, h) :: (b, k) :: rest
    else if a = b then (a, h) :: rest
    else (b, k) :: Memory.insert rest a h

/-- R28: first registration wins; a duplicate is silently ignored. -/
def Memory.register (m : Memory) (a : Nat) (h : Byte) : Memory :=
  match Memory.read m a with
  | none => Memory.insert m a h
  | some _ => m

/-- The addresses are strictly rising from above `low`. -/
def Memory.risingFrom (low : Nat) : Memory → Bool
  | [] => true
  | (a, _) :: rest => decide (low ≤ a) && Memory.risingFrom (a + 1) rest

/-- The canonical form: addresses strictly rising, all in 0..255 (R28). No listed entry reads as an unlisted one,
since a listed one reads as `some`. -/
def Memory.wf (m : Memory) : Bool := Memory.risingFrom 0 m && m.all (fun cell => decide (cell.1 < 256))

/-! ### Events and responses -/

/-- R9: append one event to the trace. -/
def emit (e : Event) (s : State) : State := { s with trace := s.trace ++ [e] }

/-- R30: `pc <- n + 1` for an activity in flight. -/
def Seq.advance : Seq → Seq
  | .idle => .idle
  | .busy a op n => .busy a op (n + 1)

/-- An event of the LCD-touching activity in flight: it advances `SEQ` too (R30). -/
def emitOwn (e : Event) (s : State) : State := { emit e s with seq := s.seq.advance }

/-- R96: the operation's one response, to the context that issued it. -/
def respond (c : Ctx) (r : Response) (s : State) : State := emit (.resp c r) s

/-- R266: a refused operation changes no state, emits no port event and answers `REFUSED`. -/
def refuse (c : Ctx) (r : Reason) (s : State) : State := respond c (.refused r) s

/-- R30: the agent an operation issued in a context runs as. -/
def agentOf : Ctx → Agent
  | .app => .host
  | .handler => .pollt

/-! ### Taking a fault (R271) -/

/-- Who raises (R271, step 4 "by raiser"). -/
inductive Raiser where
  | host (c : Ctx)
  | tick
  | expire
  deriving DecidableEq, Repr

/-- R271 step 2: `FAULT` keeps the first fault; the carried information is kept beside it (R261). -/
def recordFault (r : Raised) (s : State) : State :=
  { s with fault := s.fault.or (some (raisedCode r)), raises := s.raises ++ [r] }

/-- R271 step 3: a raiser that owns the sequencer releases it. A `ConcurrentLcd` raiser does not own it, and a tick
never does. -/
def releaseSeq (who : Raiser) (r : Raised) (s : State) : State :=
  match r, who with
  | .concurrentLcd _ _, _ => s
  | _, .tick => s
  | _, _ => { s with seq := .idle }

/-- R271 steps 4 and 5: the host operation answers, the tick clears `TICKBUSY` except after a handler's failure, which
halts the block and leaves it 1 (R219, R263), the expiry clears `EXPBUSY`. -/
def leaveActivity (who : Raiser) (r : Raised) (s : State) : State :=
  match who, r with
  | .host c, _ => respond c (.fault (raisedCode r)) s
  | .tick, .handlerFault _ => { s with tick := .idle, halted := true }
  | .tick, _ => { s with tick := .idle, tickBusy := false }
  | .expire, _ => { s with expBusy := false }

/-- R271: what `raise F(info)` does. Nothing is saved and control goes nowhere (there is no vector and no
return-from-fault, R272); what the raiser had not yet done is not done, because every raise ends its activity. -/
def raiseFault (who : Raiser) (r : Raised) (s : State) : State :=
  leaveActivity who r (releaseSeq who r (recordFault r s))

/-! ### Activities that can stop part-way -/

/-- How an activity can end before its pseudocode does. -/
inductive Stop where
  /-- it ended in this state: refused, faulted, halted, reset or held for ever -/
  | ended (s : State)
  /-- the host or the environment took a step that no run contains (U31) -/
  | breach (f : Fault)
  deriving DecidableEq, Repr

/-- The outcome of a step that ran an activity. -/
def conclude : Except Stop State → Host.Outcome State Fault Refusal
  | .ok s => .next s
  | .error (.ended s) => .next s
  | .error (.breach f) => .fault f

/-- R266: `HALTED = 1` refuses every packet, tested first. -/
def accept (s : State) : Except Stop State :=
  if s.halted then .error (.ended (refuse s.issuer .halted s)) else .ok s

/-- R266: the operand test of an operation. -/
def demand (good : Bool) (s : State) : Except Stop State :=
  if good then .ok s else .error (.ended (refuse s.issuer .badOperand s))

/-- R30, R265: the start of an activity that will touch port B, before it writes any state. -/
def startLcd (who : Raiser) (a : Agent) (op : OpName) (s : State) : Except Stop State :=
  match s.seq with
  | .idle => .ok { s with seq := .busy a op 0 }
  | .busy _ op' _ => .error (.ended (raiseFault who (.concurrentLcd op op') s))

/-- The start of a host operation (R265, R270). -/
def startOp (op : OpName) (s : State) : Except Stop State :=
  startLcd (.host s.issuer) (agentOf s.issuer) op s

/-- The end of a host LCD-touching operation: `SEQ <- idle` (R30) and the response (R96). -/
def finishOp (v : Byte) (s : State) : State := respond s.issuer (.ok v) { s with seq := .idle }

/-- The raiser of a fault in the activity that owns the sequencer. -/
def ownerOf (s : State) : Raiser :=
  match s.seq with
  | .busy .offt _ _ => .expire
  | _ => .host s.issuer

/-- The operation in flight and its position, for a raise (R261). -/
def positionOf (s : State) : OpName × Nat :=
  match s.seq with
  | .busy _ op n => (op, n)
  | .idle => (.tick, 0)

/-- R261: `IOFault(op, n)` of the activity in flight. -/
def ioFaultOf (s : State) : Raised := .ioFault (positionOf s).1 (positionOf s).2

/-- R261: `DeviceNotOpen(op, n)` of the activity in flight. -/
def notOpenOf (s : State) : Raised := .deviceNotOpen (positionOf s).1 (positionOf s).2

/-! ### Reset (R300, R318) -/

/-- R300: every register of the block takes its reset value, operations in flight are abandoned without a response and
no event is emitted. The environment's `SW` stays; `PB` is 0x00 after a power-on and stays on a restart of the block
alone (R318); `DEVOPEN` is 0. The run's parameters, trace and remaining schedule are the model's own and stay. -/
def resetBlock (powerOn : Bool) (s : State) : State :=
  { State.reset with
    cfg := s.cfg
    pb := if powerOn then 0 else s.pb
    sw := s.sw
    trace := s.trace
    raises := s.raises
    agenda := s.agenda }

end Sys2Proof.Machine
end

