-- ==== Sys2Proof/Machine/Flags.lean ====
section
/-!
DEFINITION. The cached flag bytes (R23 to R25) and the command bytes that carry them whole (R99, R180).
-/

namespace Sys2Proof.Machine

/-- R180: set or clear one flag of a cached byte, leaving the others. -/
def putFlag (reg mask : Byte) (on : Bool) : Byte := if on then reg ||| mask else reg &&& ~~~mask

/-- R180 on `DC`. -/
def flagDc (mask : Byte) (on : Bool) (s : State) : State := { s with dc := putFlag s.dc mask on }

/-- R180 on `EM`. -/
def flagEm (mask : Byte) (on : Bool) (s : State) : State := { s with em := putFlag s.em mask on }

/-- R99: `CMD_DISPCTRL | x[DC]`. -/
def dispCtrlByte (s : State) : Byte := s.cfg.cmdDispCtrl ||| s.dc

/-- R99: `CMD_ENTRYMODE | x[EM]`. -/
def entryModeByte (s : State) : Byte := s.cfg.cmdEntryMode ||| s.em

/-- R99: `CMD_FUNCSET | x[FS]`. -/
def funcSetByte (s : State) : Byte := s.cfg.cmdFuncSet ||| s.fs

end Sys2Proof.Machine
end

