-- ==== Sys2Proof/Syntax.lean ====
section
/-!
DEFINITION. The 28 host operations of rule R93 (spec/30_encoding.md, spec/opcode_table.json) as abstract syntax.
Operands are assembled as rule R92 says: SETCUR's are integers, every other one-byte operand is unsigned, multi-byte
numbers are whole words, texts and index lists are lists of bytes.
-/

namespace Sys2Proof

/-- The eight rows of a custom glyph, row 0 first (R200: "rows always has exactly 8 entries"). -/
structure Glyph where
  r0 : Byte
  r1 : Byte
  r2 : Byte
  r3 : Byte
  r4 : Byte
  r5 : Byte
  r6 : Byte
  r7 : Byte
  deriving DecidableEq, Repr

/-- The host operations, one constructor per row of the opcode table, in its order. -/
inductive Instr where
  | init
  | write (text : List Byte)
  | setcur (col row : Int)
  | clear
  | home
  | dispon
  | dispoff
  | curon
  | curoff
  | blinkon
  | blinkoff
  | blon
  | bloff
  | ascron
  | ascroff
  | ltr
  | rtl
  | storeg (loc : Byte) (rows : Glyph)
  | writeg (loc : Byte)
  | regs (index h : Byte)
  | regc (h : Byte) (indices : List Byte)
  | setint (ms : Word32)
  | pollstart
  | pollstop
  | swrite (text : List Byte)
  | swritet (text : List Byte) (ms : Word32)
  | sdisp (state : Byte)
  | sbl (state : Byte)
  deriving DecidableEq, Repr

end Sys2Proof
end

