-- ==== Sys2Proof/WellFormed.lean ====
section
/-!
DEFINITION. Which operations a packet can carry (rules R91 and R92 of spec/30_encoding.md).

Only the widths of the packet's fields are checked here.
The operand domains of rule R266 (REGS index, REGC address, SETINT 0, SDISP and SBL state) are no part of it: such a
packet is legal, decodes, and is refused `BadOperand` by the operation.
-/

namespace Sys2Proof

/-- R92 a: a SETCUR operand fits a signed byte. -/
def fitsSigned8 (v : Int) : Bool := decide (-128 ≤ v) && decide (v ≤ 127)

/-- R91, formats S and T: the text length is a u16. -/
def fitsLength16 (text : List Byte) : Bool := decide (text.length < 65536)

/-- R91, format K: the index count is a u8. -/
def fitsCount8 (indices : List Byte) : Bool := decide (indices.length < 256)

/-- The operation has a packet. -/
def Instr.WellFormed : Instr → Bool
  | .init => true
  | .write text => fitsLength16 text
  | .setcur col row => fitsSigned8 col && fitsSigned8 row
  | .clear => true
  | .home => true
  | .dispon => true
  | .dispoff => true
  | .curon => true
  | .curoff => true
  | .blinkon => true
  | .blinkoff => true
  | .blon => true
  | .bloff => true
  | .ascron => true
  | .ascroff => true
  | .ltr => true
  | .rtl => true
  | .storeg _ _ => true
  | .writeg _ => true
  | .regs _ _ => true
  | .regc _ indices => fitsCount8 indices
  | .setint _ => true
  | .pollstart => true
  | .pollstop => true
  | .swrite text => fitsLength16 text
  | .swritet text _ => fitsLength16 text
  | .sdisp _ => true
  | .sbl _ => true

end Sys2Proof
end

