-- ==== Sys2Proof/Decode.lean ====
section
/-!
DEFINITION. Host packets: the decoder, total on any list of bytes and rejecting by name, and the encoder
(spec/30_encoding.md rules R90 to R95).

A packet is delivered whole, so its length is known: the opcode (byte 0) selects the format, the format and, for the
three variable formats, the length or count field fix the length, and any other length is refused `BadLength`.
-/

namespace Sys2Proof

/-- Why a packet decodes to no operation (R94 a, b, d). -/
inductive DecodeError where
  | badOpcode
  | badLength
  deriving DecidableEq, Repr

/-- The eight packet formats (R91). -/
inductive Format where
  | n
  | b
  | c
  | g
  | w
  | s
  | t
  | k
  deriving DecidableEq, Repr

/-- R93: the format an opcode byte selects; `none` for the 228 illegal opcodes (R94 a). -/
def formatOf (op : Byte) : Option Format :=
  match op.toNat with
  | 0x01 => some .n
  | 0x10 => some .s
  | 0x11 => some .c
  | 0x12 => some .n
  | 0x13 => some .n
  | 0x20 => some .n
  | 0x21 => some .n
  | 0x22 => some .n
  | 0x23 => some .n
  | 0x24 => some .n
  | 0x25 => some .n
  | 0x26 => some .n
  | 0x27 => some .n
  | 0x28 => some .n
  | 0x29 => some .n
  | 0x2A => some .n
  | 0x2B => some .n
  | 0x30 => some .g
  | 0x31 => some .b
  | 0x40 => some .c
  | 0x41 => some .k
  | 0x42 => some .w
  | 0x43 => some .n
  | 0x44 => some .n
  | 0x50 => some .s
  | 0x51 => some .t
  | 0x52 => some .b
  | 0x53 => some .b
  | _ => none

/-- R91: a two-byte little-endian length, byte 1 + 256 * byte 2. -/
def le16 (b0 b1 : Byte) : Nat := b0.toNat + 256 * b1.toNat

/-- R91: a four-byte little-endian word, `v3 ++ v2 ++ v1 ++ v0`. -/
def le32 (v0 v1 v2 v3 : Byte) : Word32 := v3 ++ v2 ++ v1 ++ v0

/-- The two bytes of a length, least significant first (R67). -/
def bytes16 (n : Nat) : List Byte := [BitVec.ofNat 8 n, BitVec.ofNat 8 (n / 256)]

/-- The four bytes of a word, least significant first (R67). -/
def bytes32 (v : Word32) : List Byte :=
  [v.extractLsb' 0 8, v.extractLsb' 8 8, v.extractLsb' 16 8, v.extractLsb' 24 8]

/-- R95: the length in bytes a packet must have, from its opcode's format and its bytes 1 and 2. -/
def packetLength (f : Format) (b1 b2 : Byte) : Nat :=
  match f with
  | .n => 1
  | .b => 2
  | .c => 3
  | .g => 10
  | .w => 5
  | .s => 3 + le16 b1 b2
  | .t => 7 + le16 b1 b2
  | .k => 3 + b2.toNat

/-- Format N: the opcode alone. -/
def readN (i : Instr) : List Byte → Except DecodeError Instr
  | [] => .ok i
  | _ => .error .badLength

/-- Format B: one byte. -/
def readB (f : Byte → Instr) : List Byte → Except DecodeError Instr
  | [a] => .ok (f a)
  | _ => .error .badLength

/-- Format C: two bytes. -/
def readC (f : Byte → Byte → Instr) : List Byte → Except DecodeError Instr
  | [a, b] => .ok (f a b)
  | _ => .error .badLength

/-- Format G: a location and eight rows. -/
def readG (f : Byte → Glyph → Instr) : List Byte → Except DecodeError Instr
  | [loc, r0, r1, r2, r3, r4, r5, r6, r7] => .ok (f loc ⟨r0, r1, r2, r3, r4, r5, r6, r7⟩)
  | _ => .error .badLength

/-- Format W: a u32, little-endian. -/
def readW (f : Word32 → Instr) : List Byte → Except DecodeError Instr
  | [v0, v1, v2, v3] => .ok (f (le32 v0 v1 v2 v3))
  | _ => .error .badLength

/-- Format S: a u16 length and that many text bytes. -/
def readS (f : List Byte → Instr) : List Byte → Except DecodeError Instr
  | len0 :: len1 :: text => if text.length = le16 len0 len1 then .ok (f text) else .error .badLength
  | _ => .error .badLength

/-- Format T: a u16 length, a u32 and that many text bytes. -/
def readT (f : List Byte → Word32 → Instr) : List Byte → Except DecodeError Instr
  | len0 :: len1 :: m0 :: m1 :: m2 :: m3 :: text =>
    if text.length = le16 len0 len1 then .ok (f text (le32 m0 m1 m2 m3)) else .error .badLength
  | _ => .error .badLength

/-- Format K: a handler id, a u8 count and that many indices. -/
def readK (f : Byte → List Byte → Instr) : List Byte → Except DecodeError Instr
  | h :: cnt :: indices => if indices.length = cnt.toNat then .ok (f h indices) else .error .badLength
  | _ => .error .badLength

/-- R92 a: SETCUR's operands are signed bytes. -/
def signedCursor (a b : Byte) : Instr := .setcur a.toInt b.toInt

/-- R93: what follows the opcode, by opcode. -/
def decodeOp (op : Byte) (rest : List Byte) : Except DecodeError Instr :=
  match op.toNat with
  | 0x01 => readN .init rest
  | 0x10 => readS .write rest
  | 0x11 => readC signedCursor rest
  | 0x12 => readN .clear rest
  | 0x13 => readN .home rest
  | 0x20 => readN .dispon rest
  | 0x21 => readN .dispoff rest
  | 0x22 => readN .curon rest
  | 0x23 => readN .curoff rest
  | 0x24 => readN .blinkon rest
  | 0x25 => readN .blinkoff rest
  | 0x26 => readN .blon rest
  | 0x27 => readN .bloff rest
  | 0x28 => readN .ascron rest
  | 0x29 => readN .ascroff rest
  | 0x2A => readN .ltr rest
  | 0x2B => readN .rtl rest
  | 0x30 => readG .storeg rest
  | 0x31 => readB .writeg rest
  | 0x40 => readC .regs rest
  | 0x41 => readK .regc rest
  | 0x42 => readW .setint rest
  | 0x43 => readN .pollstart rest
  | 0x44 => readN .pollstop rest
  | 0x50 => readS .swrite rest
  | 0x51 => readT .swritet rest
  | 0x52 => readB .sdisp rest
  | 0x53 => readB .sbl rest
  | _ => .error .badOpcode

/-- The operation a packet carries (R90, R94, R95). The empty packet is `BadLength` (R94 d). -/
def decode : List Byte → Except DecodeError Instr
  | [] => .error .badLength
  | op :: rest => decodeOp op rest

/-- The packet of an operation (R91, R93). For an operation that is not `WellFormed` the fields are cut to their
widths and the packet is another operation's or none. -/
def encode : Instr → List Byte
  | .init => [0x01]
  | .write text => 0x10 :: (bytes16 text.length ++ text)
  | .setcur col row => [0x11, BitVec.ofInt 8 col, BitVec.ofInt 8 row]
  | .clear => [0x12]
  | .home => [0x13]
  | .dispon => [0x20]
  | .dispoff => [0x21]
  | .curon => [0x22]
  | .curoff => [0x23]
  | .blinkon => [0x24]
  | .blinkoff => [0x25]
  | .blon => [0x26]
  | .bloff => [0x27]
  | .ascron => [0x28]
  | .ascroff => [0x29]
  | .ltr => [0x2A]
  | .rtl => [0x2B]
  | .storeg loc g => [0x30, loc, g.r0, g.r1, g.r2, g.r3, g.r4, g.r5, g.r6, g.r7]
  | .writeg loc => [0x31, loc]
  | .regs index h => [0x40, index, h]
  | .regc h indices => 0x41 :: h :: BitVec.ofNat 8 indices.length :: indices
  | .setint ms => 0x42 :: bytes32 ms
  | .pollstart => [0x43]
  | .pollstop => [0x44]
  | .swrite text => 0x50 :: (bytes16 text.length ++ text)
  | .swritet text ms => 0x51 :: (bytes16 text.length ++ (bytes32 ms ++ text))
  | .sdisp state => [0x52, state]
  | .sbl state => [0x53, state]

/-- The packet whose byte `k` is bits `8k+7..8k` of `w` (the opcode table's numbering, every bit from `nbits` on being
0), as long as its opcode's format demands; one byte for an illegal opcode. -/
def packetOfWord (nbits w : Nat) : List Byte :=
  let bits := w % 2 ^ nbits
  let byteAt : Nat → Byte := fun k => BitVec.ofNat 8 (bits / 2 ^ (8 * k))
  match formatOf (byteAt 0) with
  | some f => (List.range (packetLength f (byteAt 1) (byteAt 2))).map byteAt
  | none => [byteAt 0]

/-- The operation the decoder reads from a table word, `none` where it refuses. -/
def decodeTableWord (nbits w : Nat) : Option Instr :=
  match decode (packetOfWord nbits w) with
  | .ok i => some i
  | .error _ => none

end Sys2Proof
end

