-- ==== Sys2Proof/Machine/Operands.lean ====
section
/-!
DEFINITION. Operand forms and address computations: cursor positions (R26, R160 to R163), CGRAM addresses (R200), the keys
of the handler map (R103, R211, R212) and the operand domains of rule R266.
-/

namespace Sys2Proof.Machine

/-! ### Cursor addresses -/

/-- R26: the RowOffsetTable, indexed only by 0 and 1. -/
def rowOffset : Nat → Nat
  | 0 => 0x00
  | _ => 0x40

/-- R7: `clamp(v, lo, hi)` over `Int`. -/
def clamp (v lo hi : Int) : Int := if v < lo then lo else if hi < v then hi else v

/-- R160: `v mod DDRAM_WIDTH`, as the u8 that is recorded and sent. -/
def reduceDdram (v : Nat) : Byte := BitVec.ofNat 8 (v % ddramWidth)

/-- R161: `(x[ADDR] + 1) mod DDRAM_WIDTH`. -/
def nextAddr (a : Byte) : Byte := reduceDdram (a.toNat + 1)

/-- R162: `(x[ROW] + 1) mod MAX_LINES`. -/
def nextRow (r : Byte) : Byte := BitVec.ofNat 8 ((r.toNat + 1) % maxLines)

/-- R163: SETCUR's clamped column. -/
def clampedCol (col : Int) : Nat := (clamp col 0 maxCol).toNat

/-- R163: SETCUR's clamped row. -/
def clampedRow (row : Int) : Nat := (clamp row 0 (maxLines - 1)).toNat

/-- R163: `ROW_OFFSET[r] + c`, not yet reduced. -/
def cursorTarget (col row : Int) : Nat := rowOffset (clampedRow row) + clampedCol col

/-! ### Command bytes that carry an address (R99) -/

/-- `CMD_SETDDRAM | a`. -/
def setDdramByte (c : Config) (a : Byte) : Byte := c.cmdSetDdram ||| a

/-- `CMD_SETCGRAM | ((loc & 7) << CGRAM_SHIFT)` (R200 masks the location to 3 bits). -/
def setCgramByte (c : Config) (loc : Byte) : Byte := c.cmdSetCgram ||| ((loc &&& 7) <<< c.cgramShift)

/-- R200: the rows in the order they are sent. -/
def glyphBytes (g : Glyph) : List Byte := [g.r0, g.r1, g.r2, g.r3, g.r4, g.r5, g.r6, g.r7]

/-! ### Keys of the handler map -/

/-- R211: `255 - 2^(i - 1)` for `i` in 1..8, `none` outside. -/
def singleKey (i : Byte) : Option Nat :=
  if i.toNat < 1 ∨ 8 < i.toNat then none else some (255 - 2 ^ (i.toNat - 1))

/-- R212: the sum of `2^idx[k]`, every listed index counted, repeats included. -/
def comboSum : List Byte → Nat
  | [] => 0
  | i :: rest => 2 ^ i.toNat + comboSum rest

/-- R212: `255 - S - 1` over `Int`. -/
def comboAddress (indices : List Byte) : Int := 255 - (comboSum indices : Int) - 1

/-- R212: the key of a combination, `none` outside 0..255 (refused, not wrapped). -/
def comboKey (indices : List Byte) : Option Nat :=
  if comboAddress indices < 0 ∨ 255 < comboAddress indices then none else some (comboAddress indices).toNat

/-! ### Operand domains -/

/-- R92 e, R240, R241: a state operand is 0 or 1. -/
def legalState (st : Byte) : Bool := decide (st.toNat ≤ 1)

/-- R266, reason `BadOperand`: the operand test of the five operations that have one. -/
def operandOk : Instr → Bool
  | .init => true
  | .write _ => true
  | .setcur _ _ => true
  | .clear => true
  | .home => true
  | .dispon => true
  | .dispoff => true
  | .curon => true
  | .curoff => true
  | .blinkon => true
  | .blinkoff => true
  | .blon => true
  | .bloff => true
  | .ascron => true
  | .ascroff => true
  | .ltr => true
  | .rtl => true
  | .storeg _ _ => true
  | .writeg _ => true
  | .regs index _ => (singleKey index).isSome
  | .regc _ indices => (comboKey indices).isSome
  | .setint ms => decide (ms ≠ 0)
  | .pollstart => true
  | .pollstop => true
  | .swrite _ => true
  | .swritet _ _ => true
  | .sdisp state => legalState state
  | .sbl state => legalState state

/-! ### Which operations touch port B -/

/-- R240: SDISP has a hardware step to do. -/
def sdispTouches (st : Byte) (s : State) : Bool := if st = 1 then !s.displayOn else s.displayOn

/-- R241: SBL has a hardware step to do. -/
def sblTouches (st : Byte) (s : State) : Bool := if st = 1 then !s.backlightOn else s.backlightOn

/-- R30, R265: the LCD-touching operations, known from the operands and the state at the start. -/
def touches (i : Instr) (s : State) : Option OpName :=
  match i with
  | .init => some .init
  | .write _ => some .write
  | .setcur _ _ => some .setcur
  | .clear => some .clear
  | .home => some .home
  | .dispon => some .dispon
  | .dispoff => some .dispoff
  | .curon => some .curon
  | .curoff => some .curoff
  | .blinkon => some .blinkon
  | .blinkoff => some .blinkoff
  | .blon => some .blon
  | .bloff => some .bloff
  | .ascron => some .ascron
  | .ascroff => some .ascroff
  | .ltr => some .ltr
  | .rtl => some .rtl
  | .storeg _ _ => some .storeg
  | .writeg _ => some .writeg
  | .regs _ _ => none
  | .regc _ _ => none
  | .setint _ => none
  | .pollstart => none
  | .pollstop => none
  | .swrite _ => some .swrite
  | .swritet _ _ => some .swritet
  | .sdisp st => if sdispTouches st s then some .sdisp else none
  | .sbl st => if sblTouches st s then some .sbl else none

end Sys2Proof.Machine
end

