-- ==== Sys2Proof/Machine/Poller.lean ====
section
/-!
DEFINITION. The switch-input poller (spec/44_input_poller.md): registration, interval and control operations, each one
atomic step in a given context, and the steps of a TICK between its events.
-/

namespace Sys2Proof.Machine

/-- R266: every operation is refused `Halted` while the block is halted. -/
def unlessHalted (c : Ctx) (f : State → State) (s : State) : State :=
  if s.halted then refuse c .halted s else f s

/-! ### Registration -/

/-- R211, R212: store the handler if the key is free, and answer `OK` either way; no key, no domain: refused. -/
def registerOp (c : Ctx) (key : Option Nat) (h : Byte) (s : State) : State :=
  match key with
  | none => refuse c .badOperand s
  | some a => respond c (.ok 0) { s with map := Memory.register s.map a h }

/-! ### Control -/

/-- The operation a context is held in. -/
def waitOf (c : Ctx) (s : State) : Option Held :=
  match c with
  | .app => s.appWait
  | .handler => s.handlerWait

/-- Hold a context, or let it go. -/
def setWait (c : Ctx) (w : Option Held) (s : State) : State :=
  match c with
  | .app => { s with appWait := w }
  | .handler => { s with handlerWait := w }

/-- R213: stop, update, restart, in one step. -/
def restartPoller (c : Ctx) (ms : Word32) (s : State) : State :=
  respond c (.ok 0) { s with interval := ms, running := true }

/-- R215: the poller stops. -/
def stopPoller (c : Ctx) (s : State) : State := respond c (.ok 0) { s with running := false }

/-- R213: SETINT. While a tick is in flight the operation is held. -/
def setintOp (c : Ctx) (ms : Word32) (s : State) : State :=
  if ms = 0 then refuse c .badOperand s
  else if s.running then
    if s.tickBusy then setWait c (some (.setint ms)) s else restartPoller c ms s
  else respond c (.ok 0) { s with interval := ms }

/-- R214: POLLSTART. -/
def pollstartOp (c : Ctx) (s : State) : State :=
  respond c (.ok 0) (if s.running then s else { s with running := true })

/-- R215: POLLSTOP. While a tick is in flight the operation is held. -/
def pollstopOp (c : Ctx) (s : State) : State :=
  if s.running then
    if s.tickBusy then setWait c (some .pollstop) s else stopPoller c s
  else respond c (.ok 0) s

/-- R213, R215: the step of a held operation: it ends as soon as no tick is in flight; a halted block lifts no wait
(R263). -/
def resume (c : Ctx) (s : State) : State :=
  match waitOf c s with
  | none => s
  | some w =>
    if s.halted || s.tickBusy then s
    else
      match w with
      | .pollstop => stopPoller c (setWait c none s)
      | .setint ms => restartPoller c ms (setWait c none s)

/-! ### The tick -/

/-- R216, first event: the switch register is read. -/
def tickSample (readOk : Bool) (s : State) : State :=
  if s.devOpen then
    if readOk then emit (.rd .sw s.sw) { s with tickBusy := true, tick := .sampled s.sw }
    else raiseFault .tick (.ioFault .tick 0) { s with tickBusy := true }
  else raiseFault .tick (.deviceNotOpen .tick 0) { s with tickBusy := true }

/-- R216: the tick ends. -/
def tickEnd (s : State) : State := { s with tick := .idle, tickBusy := false }

/-- R216 after `RD(SW, v)`: an unchanged value ends the tick; a changed one is recorded and looked up, and a registered
handler is dispatched under the lock (R218); while another holder has the lock nothing happens. -/
def tickLookup (v : Byte) (s : State) : State :=
  if v = s.last then tickEnd s
  else
    match Memory.read s.map v.toNat with
    | none => tickEnd { s with last := v }
    | some h =>
      if s.lock then s
      else emit (.disp h) { s with last := v, lock := true, tick := .inHandler h }

/-- R216 after `HRET`: the lock is released; a failed handler halts the block (R219), otherwise the tick ends. -/
def tickReturn (h : Byte) (ok : Bool) (s : State) : State :=
  if ok then tickEnd { s with lock := false }
  else raiseFault .tick (.handlerFault h) { s with lock := false }

/-- The next step of POLLT: a firing of the poll timer when no tick is in flight (dropped when one is, and nothing when
the poller is idle, R217), or the next step of the tick in flight. A halted block takes none (R263). -/
def polltStep (readOk : Bool) (s : State) : State :=
  if s.halted then s
  else
    match s.tick with
    | .idle => if s.running && !s.tickBusy then tickSample readOk s else s
    | .sampled v => tickLookup v s
    | .inHandler _ => s
    | .returned h ok => tickReturn h ok s

/-- R101, R218: `HRET(ok)` ends the `Dispatch` hold. -/
def handlerReturns (h : Byte) (ok : Bool) (s : State) : State :=
  emit (.hret ok) { s with tick := .returned h ok }

/-! ### The meanings of the five operations -/

/-- R211 REGS. -/
def execRegs (index h : Byte) (s : State) : Host.Outcome State Fault Refusal :=
  .next (unlessHalted s.issuer (registerOp s.issuer (singleKey index) h) s)

/-- R212 REGC. -/
def execRegc (h : Byte) (indices : List Byte) (s : State) : Host.Outcome State Fault Refusal :=
  .next (unlessHalted s.issuer (registerOp s.issuer (comboKey indices) h) s)

/-- R213 SETINT. -/
def execSetint (ms : Word32) (s : State) : Host.Outcome State Fault Refusal :=
  .next (unlessHalted s.issuer (setintOp s.issuer ms) s)

/-- R214 POLLSTART. -/
def execPollstart (s : State) : Host.Outcome State Fault Refusal :=
  .next (unlessHalted s.issuer (pollstartOp s.issuer) s)

/-- R215 POLLSTOP. -/
def execPollstop (s : State) : Host.Outcome State Fault Refusal :=
  .next (unlessHalted s.issuer (pollstopOp s.issuer) s)

end Sys2Proof.Machine
end

