-- ==== Sys2Proof/Machine/Interleave.lean ====
section
/-!
DEFINITION. The steps the agents and the environment take, each atomic (R10, R268, R303, R323).

While an LCD-touching activity is in flight every step of another agent is atomic: an operation that touches port B is
the fault `ConcurrentLcd` at once (R265), the rest of R276's list has no event but its response, a tick moves between
two of its events, an expiry collides. `act` is one such step; the transfer primitives weave them between their events.
-/

namespace Sys2Proof.Machine

/-- R303: the operations that are one atomic step: the poller's five, and SDISP and SBL with nothing to do. The other
operations touch port B and are not run here. -/
def atomicOp (c : Ctx) (i : Instr) (s : State) : State :=
  match i with
  | .init => s
  | .write _ => s
  | .setcur _ _ => s
  | .clear => s
  | .home => s
  | .dispon => s
  | .dispoff => s
  | .curon => s
  | .curoff => s
  | .blinkon => s
  | .blinkoff => s
  | .blon => s
  | .bloff => s
  | .ascron => s
  | .ascroff => s
  | .ltr => s
  | .rtl => s
  | .storeg _ _ => s
  | .writeg _ => s
  | .regs index h => registerOp c (singleKey index) h s
  | .regc h indices => registerOp c (comboKey indices) h s
  | .setint ms => setintOp c ms s
  | .pollstart => pollstartOp c s
  | .pollstop => pollstopOp c s
  | .swrite _ => s
  | .swritet _ _ => s
  | .sdisp _ => respond c (.ok 0) s
  | .sbl _ => respond c (.ok 0) s

/-- R265, R270: an operation issued in context `c` while an LCD-touching activity is in flight. -/
def overlapped (c : Ctx) (i : Instr) (s : State) : State :=
  if s.halted then refuse c .halted s
  else if operandOk i then
    match touches i s, s.seq with
    | some op, .busy _ inFlight _ => raiseFault (.host c) (.concurrentLcd op inFlight) s
    | some _, .idle => s
    | none, _ => atomicOp c i s
  else refuse c .badOperand s

/-- R244, R265: the auto-off timer elapses while an LCD-touching activity is in flight: the first line of EXPIRE, then
`ConcurrentLcd`. -/
def expiryCollides (s : State) : State :=
  if s.timeoutActive && !s.halted then
    match s.seq with
    | .busy _ inFlight _ =>
      raiseFault .expire (.concurrentLcd .expire inFlight) { s with expBusy := true, timeoutActive := false }
    | .idle => s
  else s

/-- A context has an operation in flight that has not answered. -/
def contextBusy (c : Ctx) (s : State) : Bool :=
  (waitOf c s).isSome ||
    match s.seq with
    | .busy a _ _ => decide (a = agentOf c)
    | .idle => false

/-- The handler context is live between `DISP` and `HRET` (R276). -/
def handlerLive (s : State) : Bool :=
  match s.tick with
  | .inHandler _ => true
  | _ => false

/-- R323: what forbids a packet in context `c`. A halted block answers every packet (R263). -/
def packetBreach (c : Ctx) (s : State) : Option Fault :=
  if s.halted then none
  else if contextBusy c s then some (.secondPacket c)
  else
    match c with
    | .app => none
    | .handler => if handlerLive s then none else some .noHandlerContext

/-- R94, R266: the reason of a packet that decodes to no operation. -/
def decodeReason : DecodeError → Reason
  | .badOpcode => .badOpcode
  | .badLength => .badLength

/-- R266: the refusal of a packet that decodes to no operation; `Halted` is tested first. -/
def refusePacket (c : Ctx) (e : DecodeError) (s : State) : State :=
  refuse c (if s.halted then .halted else decodeReason e) s

/-- Something is in flight (R323: then the device may not be closed); in a halted block nothing is (R263). -/
def anythingInFlight (s : State) : Bool :=
  !s.halted &&
    (decide (s.seq ≠ .idle) || s.tickBusy || s.expBusy || s.appWait.isSome || s.handlerWait.isSome)

/-- R301: the open step: on success `DEVOPEN <- 1`, on failure it stays. An open device is not opened again (R36 "never
recreated unless explicitly closed and reopened"). -/
def openStep (ok : Bool) (s : State) : State := { s with devOpen := s.devOpen || ok }

/-- One atomic step of another agent or of the environment; for a packet or an expiry, as it goes while an LCD-touching
activity is in flight. A reset abandons that activity. -/
def act (a : Act) (s : State) : Except Stop State :=
  match a with
  | .packet c bytes =>
    match packetBreach c s with
    | some f => .error (.breach f)
    | none =>
      match decode bytes with
      | .ok i => .ok (overlapped c i s)
      | .error e => .ok (refusePacket c e s)
  | .pollt readOk => .ok (polltStep readOk s)
  | .hret ok =>
    match s.tick with
    | .inHandler h =>
      if contextBusy .handler s then .error (.breach .handlerStillBlocked) else .ok (handlerReturns h ok s)
    | _ => .error (.breach .strayHandlerReturn)
  | .offt => .ok (expiryCollides s)
  | .resume c => .ok (resume c s)
  | .switches v => .ok { s with sw := v }
  | .openDevice ok => .ok (openStep ok s)
  | .closeDevice => if anythingInFlight s then .error (.breach .closeInFlight) else .ok { s with devOpen := false }
  | .reset powerOn => .error (.ended (resetBlock powerOn s))

/-- The steps woven after one event of the activity in flight; a halt stops that activity (R263). -/
def weaveActs : List Act → State → Except Stop State
  | [], s => .ok s
  | a :: rest, s => do
    let t ← act a s
    if t.halted then .error (.ended t) else weaveActs rest t

end Sys2Proof.Machine
end

