-- ==== Sys2Proof/Machine/Transfer.lean ====
section
/-!
DEFINITION. The nibble-transfer sequencer (spec/40_transfer.md): the register accesses and delays of the activity in
flight with what the schedule weaves between them, the primitives SetRS, PulseEnable, SendNibble, SendByte, SendCommand
and SendData, the frame every LCD-touching operation shares, and INIT.
-/

namespace Sys2Proof.Machine

/-! ### One event of the activity in flight -/

/-- What the schedule has for the next event; past its end no access fails and nothing intervenes. -/
def nextSlot (s : State) : Slot := s.weave.headD ⟨false, []⟩

/-- The schedule after that event. -/
def popSlot (s : State) : State := { s with weave := s.weave.tail }

/-- R9, R30, R303: the event happens, then the other agents take the steps the schedule has for them. -/
def ownEvent (e : Event) (s : State) : Except Stop State :=
  weaveActs (nextSlot s).after (emitOwn e (popSlot s))

/-- R8 `Delay(t)`: it cannot fail (R136). -/
def delay (t : Wait) (s : State) : Except Stop State := ownEvent (.dly t) s

/-- R136, R262, R264: a register access of port B. With the device closed, or failed by the environment, it has no
effect, emits no event and raises; otherwise the latch takes `pb'` and the event is `e`. -/
def access (e : Event) (pb' : Byte) (s : State) : Except Stop State :=
  if s.devOpen then
    if (nextSlot s).fails then .error (.ended (raiseFault (ownerOf s) (ioFaultOf s) (popSlot s)))
    else ownEvent e { s with pb := pb' }
  else .error (.ended (raiseFault (ownerOf s) (notOpenOf s) s))

/-- R8, R64 `MemRead(PB, 1)`: the latch is read back and unchanged; the value read is `s.pb`. -/
def readPb (s : State) : Except Stop State := access (.rd .pb s.pb) s.pb s

/-- R8, R64 `MemWrite(PB, 1, v)`. -/
def writePb (v : Byte) (s : State) : Except Stop State := access (.wr .pb v) v s

/-- R8, R64 `BitWrite(PB, i, b)`. -/
def bitWrite (i : Nat) (b : Bool) (s : State) : Except Stop State :=
  access (.bw .pb i b) (setBit s.pb i b) s

/-! ### The primitives -/

/-- R130 `SetRS(b)`. -/
def setRs (b : Bool) (s : State) : Except Stop State := bitWrite s.cfg.pinRs b s

/-- R131 `PulseEnable()`. -/
def pulseEnable (s : State) : Except Stop State := do
  let s ← bitWrite s.cfg.pinEn true s
  let s ← delay .pulse s
  let s ← bitWrite s.cfg.pinEn false s
  delay .pulse s

/-- R132 `SendNibble(n)`: read, merge, write, strobe. -/
def sendNibble (n : Nibble) (s : State) : Except Stop State := do
  let p := s.pb
  let s ← readPb s
  let s ← writePb (putNibble p n) s
  pulseEnable s

/-- R133 `SendByte(v)`: high nibble first. -/
def sendByte (v : Byte) (s : State) : Except Stop State := do
  let s ← sendNibble (highNibble v) s
  sendNibble (lowNibble v) s

/-- R134, R135: one bus byte, RS first, settle delay last. -/
def sendBus (rs : Bool) (v : Byte) (s : State) : Except Stop State := do
  let s ← setRs rs s
  let s ← sendByte v s
  delay .settle s

/-- R134 `SendCommand(c)`. -/
def sendCommand (c : Byte) (s : State) : Except Stop State := sendBus false c s

/-- R135 `SendData(d)`. -/
def sendData (d : Byte) (s : State) : Except Stop State := sendBus true d s

/-! ### The frame of an LCD-touching operation -/

/-- R266, R265, then the operation's pseudocode, then `SEQ <- idle` and the response (R30, R96). -/
def lcdOp (op : OpName) (body : State → Except Stop State) (result : State → Byte) (s : State) :
    Host.Outcome State Fault Refusal :=
  conclude (do
    let s ← accept s
    let s ← startOp op s
    let s ← body s
    return finishOp (result s) s)

/-- R96: the result of an operation the source gives none. -/
def noResult (_ : State) : Byte := 0

/-- R96: the result of WRITE, SETCUR, WRITEG, SWRITE and SWRITET. -/
def addrResult (s : State) : Byte := s.addr

/-! ### INIT -/

/-- R137: a raw nibble with its settle delay. -/
def rawNibble (n : Nibble) (s : State) : Except Stop State := do
  let s ← sendNibble n s
  delay .settle s

/-- R137: one legacy 8-bit reset after its setup delay. -/
def legacyReset (t : Wait) (s : State) : Except Stop State := do
  let s ← delay t s
  rawNibble s.cfg.nibReset8 s

/-- R164, R165, R137: a command with the longer settle delay. -/
def sendSlowCommand (c : Byte) (s : State) : Except Stop State := do
  let s ← sendCommand c s
  delay .clear s

/-- R164, R165, R137: the cached cursor goes home. -/
def cursorHome (s : State) : State := { s with addr := 0, row := 0 }

/-- R302, R324: an INIT has completed. -/
def markInit (s : State) : State := { s with initDone := true }

/-- R137: RS cleared, three legacy 8-bit resets at decreasing delays, the drop to 4-bit mode. -/
def initRaw (s : State) : Except Stop State := do
  let s ← setRs false s
  let s ← legacyReset .setup0 s
  let s ← legacyReset .setup1 s
  let s ← legacyReset .setup2 s
  rawNibble s.cfg.nibTo4bit s

/-- R137: function set, display control, entry mode, clear. -/
def initFlags (s : State) : Except Stop State := do
  let s := { s with fs := s.cfg.initFs }
  let s ← sendCommand (funcSetByte s) s
  let s := { s with dc := s.cfg.initDc }
  let s ← sendCommand (dispCtrlByte s) s
  let s := { s with em := s.cfg.initEm }
  let s ← sendCommand (entryModeByte s) s
  let s ← sendSlowCommand s.cfg.cmdClear s
  return markInit (cursorHome s)

/-- R137: the initialisation sequence. -/
def initBody (s : State) : Except Stop State := do
  let s ← initRaw s
  initFlags s

/-- R137 INIT. -/
def execInit (s : State) : Host.Outcome State Fault Refusal := lcdOp .init initBody noResult s

end Sys2Proof.Machine
end

