-- ==== Sys2Proof/Machine/Text.lean ====
section
/-!
DEFINITION. Text and cursor operations (spec/41_text_cursor.md): WRITE, SETCUR, CLEAR, HOME.
-/

namespace Sys2Proof.Machine

/-- R160 `SetDdram(v)`: reduce, send, record. -/
def setDdram (v : Nat) (s : State) : Except Stop State := do
  let s ← sendCommand (setDdramByte s.cfg (reduceDdram v)) s
  return { s with addr := reduceDdram v }

/-- R162 `Newline()`: the row advances first, then the cursor goes to column 0 of the new row. -/
def newline (s : State) : Except Stop State :=
  let s := { s with row := nextRow s.row }
  setDdram (rowOffset s.row.toNat) s

/-- R161, R201: one data byte, then the cached address advances by one modulo 80. -/
def sendChar (d : Byte) (s : State) : Except Stop State := do
  let s ← sendData d s
  return { s with addr := nextAddr s.addr }

/-- R161: the loop over the text. -/
def writeText : List Byte → State → Except Stop State
  | [], s => .ok s
  | b :: rest, s => do
    let s ← if b = s.cfg.newline then newline s else sendChar b s
    writeText rest s

/-- R161, R201: the set-DDRAM-address command to the current cursor. -/
def sendCursor (s : State) : Except Stop State := sendCommand (setDdramByte s.cfg s.addr) s

/-- R161: the pseudocode of WRITE without its respond. -/
def writeBody (text : List Byte) (s : State) : Except Stop State := do
  let s ← sendCursor s
  writeText text s

/-- R163: the pseudocode of SETCUR without its respond. -/
def setcurBody (col row : Int) (s : State) : Except Stop State := do
  let s ← setDdram (cursorTarget col row) s
  return { s with row := BitVec.ofNat 8 (clampedRow row) }

/-- R164: the pseudocode of CLEAR without its respond. -/
def clearBody (s : State) : Except Stop State := do
  let s ← sendSlowCommand s.cfg.cmdClear s
  return cursorHome s

/-- R165: the pseudocode of HOME without its respond. -/
def homeBody (s : State) : Except Stop State := do
  let s ← sendSlowCommand s.cfg.cmdHome s
  return cursorHome s

/-- R161 WRITE. -/
def execWrite (text : List Byte) (s : State) : Host.Outcome State Fault Refusal :=
  lcdOp .write (writeBody text) addrResult s

/-- R163 SETCUR. -/
def execSetcur (col row : Int) (s : State) : Host.Outcome State Fault Refusal :=
  lcdOp .setcur (setcurBody col row) addrResult s

/-- R164 CLEAR. -/
def execClear (s : State) : Host.Outcome State Fault Refusal := lcdOp .clear clearBody noResult s

/-- R165 HOME. -/
def execHome (s : State) : Host.Outcome State Fault Refusal := lcdOp .home homeBody noResult s

end Sys2Proof.Machine
end

