-- ==== Sys2Proof/Machine/Glyphs.lean ====
section
/-!
DEFINITION. Custom-glyph operations (spec/43_custom_glyphs.md): STOREG, WRITEG.
-/

namespace Sys2Proof.Machine

/-- R200: the rows are streamed as data bytes, in order. -/
def sendRows : List Byte → State → Except Stop State
  | [], s => .ok s
  | d :: rest, s => do
    let s ← sendData d s
    sendRows rest s

/-- R200: the pseudocode of STOREG without its respond. -/
def storegBody (loc : Byte) (rows : Glyph) (s : State) : Except Stop State := do
  let s ← sendCommand (setCgramByte s.cfg loc) s
  sendRows (glyphBytes rows) s

/-- R201: the pseudocode of WRITEG without its respond; the location is not masked. -/
def writegBody (loc : Byte) (s : State) : Except Stop State := do
  let s ← sendCursor s
  sendChar loc s

/-- R200 STOREG. -/
def execStoreg (loc : Byte) (rows : Glyph) (s : State) : Host.Outcome State Fault Refusal :=
  lcdOp .storeg (storegBody loc rows) noResult s

/-- R201 WRITEG. -/
def execWriteg (loc : Byte) (s : State) : Host.Outcome State Fault Refusal :=
  lcdOp .writeg (writegBody loc) addrResult s

end Sys2Proof.Machine
end

