-- ==== Sys2Proof/Machine/Attributes.lean ====
section
/-!
DEFINITION. Display-attribute operations (spec/42_display_attributes.md): ten flag operations over the common scheme of
rule R180, and the backlight line.
-/

namespace Sys2Proof.Machine

/-- R180 on the display-control byte: the cache first, then the whole command. -/
def dcBody (mask : Byte) (on : Bool) (s : State) : Except Stop State :=
  let s := flagDc mask on s
  sendCommand (dispCtrlByte s) s

/-- R180 on the entry-mode byte. -/
def emBody (mask : Byte) (on : Bool) (s : State) : Except Stop State :=
  let s := flagEm mask on s
  sendCommand (entryModeByte s) s

/-- R187, R188: one single-bit write of the backlight line, no command and no delay. -/
def backlightBody (on : Bool) (s : State) : Except Stop State := bitWrite s.cfg.pinBl on s

/-- R181: the body of DISPON. -/
def disponBody (s : State) : Except Stop State := dcBody s.cfg.dcD true s

/-- R182: the body of DISPOFF. -/
def dispoffBody (s : State) : Except Stop State := dcBody s.cfg.dcD false s

/-- R181 DISPON. -/
def execDispon (s : State) : Host.Outcome State Fault Refusal := lcdOp .dispon disponBody noResult s

/-- R182 DISPOFF. -/
def execDispoff (s : State) : Host.Outcome State Fault Refusal := lcdOp .dispoff dispoffBody noResult s

/-- R183 CURON. -/
def execCuron (s : State) : Host.Outcome State Fault Refusal := lcdOp .curon (dcBody s.cfg.dcC true) noResult s

/-- R184 CUROFF. -/
def execCuroff (s : State) : Host.Outcome State Fault Refusal := lcdOp .curoff (dcBody s.cfg.dcC false) noResult s

/-- R185 BLINKON. -/
def execBlinkon (s : State) : Host.Outcome State Fault Refusal := lcdOp .blinkon (dcBody s.cfg.dcB true) noResult s

/-- R186 BLINKOFF. -/
def execBlinkoff (s : State) : Host.Outcome State Fault Refusal := lcdOp .blinkoff (dcBody s.cfg.dcB false) noResult s

/-- R187 BLON. -/
def execBlon (s : State) : Host.Outcome State Fault Refusal := lcdOp .blon (backlightBody true) noResult s

/-- R188 BLOFF. -/
def execBloff (s : State) : Host.Outcome State Fault Refusal := lcdOp .bloff (backlightBody false) noResult s

/-- R189 ASCRON. -/
def execAscron (s : State) : Host.Outcome State Fault Refusal := lcdOp .ascron (emBody s.cfg.emS true) noResult s

/-- R190 ASCROFF. -/
def execAscroff (s : State) : Host.Outcome State Fault Refusal := lcdOp .ascroff (emBody s.cfg.emS false) noResult s

/-- R191 LTR. -/
def execLtr (s : State) : Host.Outcome State Fault Refusal := lcdOp .ltr (emBody s.cfg.emId true) noResult s

/-- R192 RTL. -/
def execRtl (s : State) : Host.Outcome State Fault Refusal := lcdOp .rtl (emBody s.cfg.emId false) noResult s

end Sys2Proof.Machine
end

