-- ==== Sys2Proof/Machine/Session.lean ====
section
/-!
DEFINITION. The display session (spec/45_session.md): SDISP, SBL, SWRITE, SWRITET, the synchronous cancel of the
auto-off timer, and its expiry.
-/

namespace Sys2Proof.Machine

/-- R240, R242: the display is switched on if the session holds it off; the flag follows the hardware step. -/
def displayOnBody (s : State) : Except Stop State :=
  if s.displayOn then .ok s
  else do
    let s ← disponBody s
    return { s with displayOn := true }

/-- R241, R242: the backlight is switched on if the session holds it off. -/
def backlightOnBody (s : State) : Except Stop State :=
  if s.backlightOn then .ok s
  else do
    let s ← backlightBody true s
    return { s with backlightOn := true }

/-- R240, R241: the backlight is switched off if the session holds it on. -/
def backlightOffBody (s : State) : Except Stop State :=
  if s.backlightOn then do
    let s ← backlightBody false s
    return { s with backlightOn := false }
  else .ok s

/-- R240, R244: the display is switched off if the session holds it on, and the backlight with it.
With the display held off and the backlight on (`SBL on` from reset) nothing happens and the light stays on, as R240's
pseudocode says; R246 a, which R246 derives from it, says that `BACKLIGHT_ON` is 0 then. That the pseudocode is followed is
DEDUCED, unsafe, notes/assumptions/23.md. -/
def displayOffBody (s : State) : Except Stop State :=
  if s.displayOn then do
    let s ← dispoffBody s
    backlightOffBody { s with displayOn := false }
  else .ok s

/-- R240: the pseudocode of SDISP without its respond. -/
def sdispBody (st : Byte) (s : State) : Except Stop State :=
  if st = 1 then displayOnBody s else displayOffBody s

/-- R241: the pseudocode of SBL without its respond. -/
def sblBody (st : Byte) (s : State) : Except Stop State :=
  if st = 1 then backlightOnBody s else backlightOffBody s

/-- R240, R241: an idempotent switch: refused for its operand, a no-op response, or an LCD-touching operation. -/
def switchOp (op : OpName) (good touching : Bool) (body : State → Except Stop State) (s : State) :
    Host.Outcome State Fault Refusal :=
  conclude (do
    let s ← accept s
    let s ← demand good s
    if touching then do
      let s ← startOp op s
      let s ← body s
      return finishOp 0 s
    else return respond s.issuer (.ok 0) s)

/-- R240 SDISP. -/
def execSdisp (st : Byte) (s : State) : Host.Outcome State Fault Refusal :=
  switchOp .sdisp (legalState st) (sdispTouches st s) (sdispBody st) s

/-- R241 SBL. -/
def execSbl (st : Byte) (s : State) : Host.Outcome State Fault Refusal :=
  switchOp .sbl (legalState st) (sblTouches st s) (sblBody st) s

/-- R242: "if display or backlight is currently off, turn both on first". -/
def powerUp (s : State) : Except Stop State :=
  if s.displayOn && s.backlightOn then .ok s
  else do
    let s ← displayOnBody s
    backlightOnBody s

/-- R245 `CancelTimer()`. The wait for `EXPBUSY = 0` never holds in a reachable state; where it does, no agent that
could lift it is in flight, and the operation stays in flight for ever. -/
def cancelTimer (s : State) : Except Stop State :=
  if s.expBusy then .error (.ended s) else .ok { s with timeoutActive := false }

/-- R242: "if an auto-off timer is currently pending, cancel it". -/
def cancelPending (s : State) : Except Stop State := if s.timeoutActive then cancelTimer s else .ok s

/-- R242: the pseudocode of SWRITE without its respond. -/
def swriteBody (text : List Byte) (s : State) : Except Stop State := do
  let s ← powerUp s
  let s ← cancelPending s
  writeBody text s

/-- R243: the one-shot timer starts. -/
def armTimer (ms : Word32) (s : State) : State := { s with timeout := ms, timeoutActive := true }

/-- R243: the pseudocode of SWRITET without its respond. -/
def swritetBody (text : List Byte) (ms : Word32) (s : State) : Except Stop State := do
  let s ← swriteBody text s
  return armTimer ms s

/-- R242 SWRITE. -/
def execSwrite (text : List Byte) (s : State) : Host.Outcome State Fault Refusal :=
  lcdOp .swrite (swriteBody text) addrResult s

/-- R243 SWRITET. -/
def execSwritet (text : List Byte) (ms : Word32) (s : State) : Host.Outcome State Fault Refusal :=
  lcdOp .swritet (swritetBody text ms) addrResult s

/-- R244 EXPIRE, the auto-off expiry: it cancels itself, clears, switches the display off, and nobody is answered.
A pending timer may elapse at any moment (R319); without one, or in a halted block, nothing happens. -/
def expire (s : State) : Host.Outcome State Fault Refusal :=
  if s.timeoutActive && !s.halted then
    conclude (do
      let s := { s with expBusy := true, timeoutActive := false }
      let s ← startLcd .expire .offt .expire s
      let s ← clearBody s
      let s ← displayOffBody s
      return { s with expBusy := false, seq := .idle })
  else .next s

end Sys2Proof.Machine
end

