-- ==== Sys2Proof/Machine/Dispatch.lean ====
section
/-! DEFINITION. The dispatch of an operation to its meaning, one arm per constructor of Instr. -/

namespace Sys2Proof.Machine

def exec (i : Instr) (s : State) : Host.Outcome State Fault Refusal :=
  match i with
  | .init => Sys2Proof.Machine.execInit s
  | .write text => Sys2Proof.Machine.execWrite text s
  | .setcur col row => Sys2Proof.Machine.execSetcur col row s
  | .clear => Sys2Proof.Machine.execClear s
  | .home => Sys2Proof.Machine.execHome s
  | .dispon => Sys2Proof.Machine.execDispon s
  | .dispoff => Sys2Proof.Machine.execDispoff s
  | .curon => Sys2Proof.Machine.execCuron s
  | .curoff => Sys2Proof.Machine.execCuroff s
  | .blinkon => Sys2Proof.Machine.execBlinkon s
  | .blinkoff => Sys2Proof.Machine.execBlinkoff s
  | .blon => Sys2Proof.Machine.execBlon s
  | .bloff => Sys2Proof.Machine.execBloff s
  | .ascron => Sys2Proof.Machine.execAscron s
  | .ascroff => Sys2Proof.Machine.execAscroff s
  | .ltr => Sys2Proof.Machine.execLtr s
  | .rtl => Sys2Proof.Machine.execRtl s
  | .storeg loc rows => Sys2Proof.Machine.execStoreg loc rows s
  | .writeg loc => Sys2Proof.Machine.execWriteg loc s
  | .regs index h => Sys2Proof.Machine.execRegs index h s
  | .regc h indices => Sys2Proof.Machine.execRegc h indices s
  | .setint ms => Sys2Proof.Machine.execSetint ms s
  | .pollstart => Sys2Proof.Machine.execPollstart s
  | .pollstop => Sys2Proof.Machine.execPollstop s
  | .swrite text => Sys2Proof.Machine.execSwrite text s
  | .swritet text ms => Sys2Proof.Machine.execSwritet text ms s
  | .sdisp state => Sys2Proof.Machine.execSdisp state s
  | .sbl state => Sys2Proof.Machine.execSbl state s

end Sys2Proof.Machine
end

