-- ==== Sys2Proof/Machine/Turn.lean ====
section
/-!
DEFINITION. One turn of the schedule between activities: the packet that arrives is decoded and run, the expiry runs,
every other step is the atomic one (R10, R30, R303, R323). And the turn that makes the next step run a given table word.
-/

namespace Sys2Proof.Machine

/-- R90, R266, R323: a packet arrives in context `c`. -/
def takePacket (c : Ctx) (bytes : List Byte) (s : State) : Host.Outcome State Fault Refusal :=
  match packetBreach c s with
  | some f => .fault f
  | none =>
    match decode bytes with
    | .ok i => exec i { s with issuer := c }
    | .error e => .next (refusePacket c e s)

/-- The step of the agent whose turn it is. -/
def takeTurn (a : Act) (s : State) : Host.Outcome State Fault Refusal :=
  match a with
  | .packet c bytes => takePacket c bytes s
  | .offt => expire s
  | .pollt readOk => conclude (act (.pollt readOk) s)
  | .hret ok => conclude (act (.hret ok) s)
  | .resume c => conclude (act (.resume c) s)
  | .switches v => conclude (act (.switches v) s)
  | .openDevice ok => conclude (act (.openDevice ok) s)
  | .closeDevice => conclude (act .closeDevice s)
  | .reset powerOn => conclude (act (.reset powerOn) s)

/-- The head of the schedule is taken: its weave is what surrounds the events of the activity it starts. -/
def beginTurn (t : Turn) (rest : List Turn) (s : State) : State := { s with agenda := rest, weave := t.weave }

/-- The application context made free: its held operation, and an operation of its own left in flight, are dropped. -/
def freeApp (s : State) : State :=
  { s with
    appWait := none
    seq := match s.seq with
      | .busy .host _ _ => .idle
      | other => other }

/-- The turn in which the application delivers the packet of a table word, alone and undisturbed. -/
def wordTurn (nbits w : Nat) : Turn := ⟨.packet .app (packetOfWord nbits w), []⟩

end Sys2Proof.Machine
end

