-- ==== Sys2Proof/Machine/Step.lean ====
section
/-!
DEFINITION. One step of the block: the next turn of the schedule. With none the block waits for its first packet (R300).
-/

namespace Sys2Proof.Machine

/-- One step. -/
def step (s : State) : Host.Outcome State Fault Refusal :=
  match s.agenda with
  | [] => .next s
  | t :: rest => takeTurn t.act (beginTurn t rest s)

/-- `s` with the packet of a table word as the next turn, and the application context free to issue it. -/
def State.withFetchWord (s : State) (nbits w : Nat) : State :=
  { freeApp s with agenda := wordTurn nbits w :: s.agenda }

end Sys2Proof.Machine
end

