-- ==== Sys2Proof/Machine/Observer.lean ====
section
/-!
DEFINITION. What an observer recovers from a trace: the bus observer of rule R77 (spec/20_memory.md), the traces the
transfer primitives leave (R102, R138) and the least duration of a trace (R321).
-/

namespace Sys2Proof.Machine

/-! ### The bus observer (R77) -/

/-- `Latched(trace)`: replay the writes of `PB` on a latch; at every falling edge of enable record RS and the nibble. -/
def latched (c : Config) : Byte → List Event → List (Bool × Nibble)
  | _, [] => []
  | _, .wr .pb v :: rest => latched c v rest
  | pb, .bw .pb i b :: rest =>
    if i = c.pinEn ∧ b = false ∧ bitOf pb c.pinEn = true then
      (bitOf (setBit pb i b) c.pinRs, lowNibble (setBit pb i b)) :: latched c (setBit pb i b) rest
    else latched c (setBit pb i b) rest
  | pb, _ :: rest => latched c pb rest

/-- The latch after a trace. -/
def latchAfter : Byte → List Event → Byte
  | pb, [] => pb
  | _, .wr .pb v :: rest => latchAfter v rest
  | pb, .bw .pb i b :: rest => latchAfter (setBit pb i b) rest
  | pb, _ :: rest => latchAfter pb rest

/-- R77: nibbles paired two by two into bus bytes, high nibble first; `Bytes(trace)` of a trace that starts between two
bytes and holds no INIT. -/
def pairNibbles : List (Bool × Nibble) → List (Bool × Byte)
  | (rs, h) :: (_, l) :: rest => (rs, h ++ l) :: pairNibbles rest
  | _ => []

/-- R77: how the observer takes the next latched nibble. -/
inductive Framing where
  /-- no INIT has dropped the controller to 4-bit mode: the nibble is half of nothing -/
  | unframed
  /-- INIT's third setup delay has passed: the nibble is its third legacy reset -/
  | lastReset
  /-- the nibble is INIT's drop to 4-bit mode: pairing starts after it -/
  | dropTo4bit
  /-- nibbles pair up: none is waiting, or a high one -/
  | paired (high : Option (Bool × Nibble))
  deriving DecidableEq, Repr

/-- The observer of the pins: its framing, and its replay of the latch. -/
structure Watch where
  framing : Framing
  pb      : Byte
  deriving DecidableEq, Repr

/-- R77: a nibble is latched. -/
def strobe : Framing → Bool × Nibble → Framing × List (Bool × Byte)
  | .unframed, _ => (.unframed, [])
  | .lastReset, _ => (.dropTo4bit, [])
  | .dropTo4bit, _ => (.paired none, [])
  | .paired none, p => (.paired (some p), [])
  | .paired (some (rs, h)), (_, l) => (.paired none, [(rs, h ++ l)])

/-- A write of RS starts a bus byte or an INIT: an INIT that was between its third reset and its drop has stopped there. -/
def selected : Framing → Framing
  | .lastReset => .unframed
  | .dropTo4bit => .unframed
  | f => f

/-- A delay: the setup delays, which only INIT makes (R320), tell an INIT in a trace. That it is recognised by them is
DEDUCED from R137, notes/assumptions/24.md.
R77 does not say how nibbles pair after an INIT that stops before its drop to 4-bit mode. DESIGN CHOICE: from the first setup
delay on, even if no strobe of that INIT follows, the earlier framing is given up and no bus byte is recovered until a later
INIT's drop; unsafe for a claim about the bus bytes of such a trace, notes/assumptions/25.md. -/
def waited : Wait → Framing → Framing
  | .setup0, _ => .unframed
  | .setup1, _ => .unframed
  | .setup2, _ => .lastReset
  | .pulse, f => f
  | .settle, f => f
  | .clear, f => f

/-- R77: what the observer does at one event, and the bus byte it completes, if any. -/
def watchEvent (c : Config) (w : Watch) : Event → Watch × List (Bool × Byte)
  | .wr .pb v => (⟨w.framing, v⟩, [])
  | .bw .pb i b =>
    if i = c.pinEn ∧ b = false ∧ bitOf w.pb c.pinEn = true then
      (⟨(strobe w.framing (bitOf (setBit w.pb i b) c.pinRs, lowNibble (setBit w.pb i b))).1, setBit w.pb i b⟩,
        (strobe w.framing (bitOf (setBit w.pb i b) c.pinRs, lowNibble (setBit w.pb i b))).2)
    else (⟨if i = c.pinRs then selected w.framing else w.framing, setBit w.pb i b⟩, [])
  | .dly t => (⟨waited t w.framing, w.pb⟩, [])
  | _ => (w, [])

/-- The observer after a trace. -/
def watchAfter (c : Config) : Watch → List Event → Watch
  | w, [] => w
  | w, e :: rest => watchAfter c (watchEvent c w e).1 rest

/-- R77: the bus bytes an observer recovers from a trace: an element with RS 0 is a command byte, with RS 1 a data byte. -/
def watchBytes (c : Config) : Watch → List Event → List (Bool × Byte)
  | _, [] => []
  | w, e :: rest => (watchEvent c w e).2 ++ watchBytes c (watchEvent c w e).1 rest

/-- `Bytes(trace)` of a whole run from reset: what comes before the first INIT's drop to 4-bit mode is no bus byte. -/
def bytesFromReset (c : Config) (pb : Byte) (es : List Event) : List (Bool × Byte) := watchBytes c ⟨.unframed, pb⟩ es

/-- `Bytes(trace)` of a trace that starts between two bytes, after an INIT. -/
def busBytes (c : Config) (pb : Byte) (es : List Event) : List (Bool × Byte) := watchBytes c ⟨.paired none, pb⟩ es

/-! ### The traces of the primitives -/

/-- The four events of `PulseEnable` (R131). -/
def pulseEvents (c : Config) : List Event :=
  [.bw .pb c.pinEn true, .dly .pulse, .bw .pb c.pinEn false, .dly .pulse]

/-- `PB` after a strobe. -/
def pulsedPb (c : Config) (pb : Byte) : Byte := setBit (setBit pb c.pinEn true) c.pinEn false

/-- The six events of `SendNibble(n)` from a latch `pb` (R132). -/
def nibbleEvents (c : Config) (n : Nibble) (pb : Byte) : List Event :=
  .rd .pb pb :: .wr .pb (putNibble pb n) :: pulseEvents c

/-- `PB` after `SendNibble(n)`. -/
def nibblePb (c : Config) (n : Nibble) (pb : Byte) : Byte := pulsedPb c (putNibble pb n)

/-- The twelve events of `SendByte(v)` (R133). -/
def byteEvents (c : Config) (v : Byte) (pb : Byte) : List Event :=
  nibbleEvents c (highNibble v) pb ++ nibbleEvents c (lowNibble v) (nibblePb c (highNibble v) pb)

/-- `PB` after `SendByte(v)`. -/
def bytePb (c : Config) (v : Byte) (pb : Byte) : Byte := nibblePb c (lowNibble v) (nibblePb c (highNibble v) pb)

/-- The fourteen events of one bus byte (R102, R134, R135). -/
def busEvents (c : Config) (rs : Bool) (v : Byte) (pb : Byte) : List Event :=
  .bw .pb c.pinRs rs :: (byteEvents c v (setBit pb c.pinRs rs) ++ [.dly .settle])

/-- `PB` after one bus byte. -/
def busPb (c : Config) (rs : Bool) (v : Byte) (pb : Byte) : Byte := bytePb c v (setBit pb c.pinRs rs)

/-- The events of a list of bus bytes, one after the other. -/
def busesEvents (c : Config) : List (Bool × Byte) → Byte → List Event
  | [], _ => []
  | (rs, v) :: rest, pb => busEvents c rs v pb ++ busesEvents c rest (busPb c rs v pb)

/-- `PB` after a list of bus bytes. -/
def busesPb (c : Config) : List (Bool × Byte) → Byte → Byte
  | [], pb => pb
  | (rs, v) :: rest, pb => busesPb c rest (busPb c rs v pb)

/-! ### Time (R319 to R321) -/

/-- The duration of a delay, in microseconds. -/
def waitTime (c : Config) : Wait → Nat
  | .pulse => c.tPulse
  | .settle => c.tSettle
  | .clear => c.tClear
  | .setup0 => c.tSetup0
  | .setup1 => c.tSetup1
  | .setup2 => c.tSetup2

/-- R321: the sum of a trace's delays. -/
def leastDuration (c : Config) : List Event → Nat
  | [] => 0
  | .dly t :: rest => waitTime c t + leastDuration c rest
  | _ :: rest => leastDuration c rest

end Sys2Proof.Machine
end

