-- ==== Sys2Proof/Safety.lean ====
section
/-!
DEFINITION. The terms claims are made in: when an operation executes normally, which schedules leave an activity alone,
the invariant of the block, and the launch premises and the end of a run (R324).
-/

namespace Sys2Proof.Machine

/-! ### Premises on a state -/

/-- No access fails and no other agent takes a step while the activity runs. -/
abbrev Quiet (s : State) : Prop := s.devOpen = true ∧ s.weave = []

/-- When a host operation executes normally: the block is not halted (R266), no LCD-touching activity is in flight
(R265), the device is open (R264), and the schedule is quiet (R262, R270). -/
abbrev Ready (s : State) : Prop := s.halted = false ∧ s.seq = .idle ∧ Quiet s

/-- No other agent takes a step while the activity runs; accesses may fail. -/
abbrev Alone (s : State) : Prop := ∀ slot ∈ s.weave, slot.after = []

/-- The step is a reset. -/
def isReset : Act → Bool
  | .reset _ => true
  | _ => false

/-- The step is one of POLLT. -/
def isPollt : Act → Bool
  | .pollt _ => true
  | _ => false

/-- Every step a schedule weaves in meets a test. -/
def weaveAll (test : Act → Bool) (weave : List Slot) : Bool := weave.all (fun slot => slot.after.all test)

/-- No reset is woven into the activity that starts. -/
def noReset (weave : List Slot) : Bool := weaveAll (fun a => !isReset a) weave

/-- Neither the turn nor what is woven into it is a reset. -/
def Turn.noReset (t : Turn) : Bool := !isReset t.act && Machine.noReset t.weave

/-- The next turn is not, and holds no, reset. -/
def nextNoReset (s : State) : Bool :=
  match s.agenda with
  | [] => true
  | t :: _ => t.noReset

/-! ### The invariant of the block -/

/-- R20 to R25: the cached LCD registers hold legal values. -/
abbrev LcdLegal (s : State) : Prop :=
  s.addr.toNat < ddramWidth ∧ s.row.toNat < maxLines ∧ s.em &&& ~~~s.cfg.emMask = 0 ∧
    s.dc &&& ~~~s.cfg.dcMask = 0 ∧ s.fs &&& ~~~s.cfg.fsMask = 0

/-- R27, R28, R213, R221: the poller's registers hold legal values, no held SETINT carries an illegal one, the map is
canonical and `MAP[255]` is `none`. -/
abbrev PollerLegal (s : State) : Prop :=
  s.interval ≠ 0 ∧ s.appWait ≠ some (.setint 0) ∧ s.handlerWait ≠ some (.setint 0) ∧
    Memory.wf s.map = true ∧ Memory.read s.map 255 = none

/-- A handler runs, or has just returned. -/
def handlerPhase : TickPhase → Bool
  | .inHandler _ => true
  | .returned _ _ => true
  | _ => false

/-- R31, R216, R218: `LOCK` is 1 exactly while a handler runs, a tick in flight has `TICKBUSY = 1` and the poller
Polling, and the handler context is held only while its handler runs. -/
abbrev TickLegal (s : State) : Prop :=
  s.lock = handlerPhase s.tick ∧ (s.tick ≠ .idle → s.tickBusy = true ∧ s.running = true) ∧
    (s.handlerWait ≠ none → handlerLive s = true)

/-- R30, R31, R245, R263: between activities nothing is in flight unless the block is halted, and it halts only with a
fault recorded. -/
abbrev FlightLegal (s : State) : Prop :=
  (s.seq ≠ .idle → s.halted = true) ∧ (s.expBusy = true → s.halted = true) ∧
    (s.halted = true → s.fault ≠ none ∧ s.tick = .idle) ∧
    (s.tickBusy = true → s.tick = .idle → s.halted = true)

/-- What holds at reset and after every step. -/
structure BlockInv (s : State) : Prop where
  config : s.cfg.Ok
  lcd    : LcdLegal s
  poller : PollerLegal s
  ticks  : TickLegal s
  flight : FlightLegal s

/-! ### Runs (R324, D46) -/

/-- R300, R324: the reset state as a launch: every register of the block as after reset, `TIMEOUT` and the environment as
they are (the device may be open already, as in `S0` of the vectors). -/
abbrev AtReset (s : State) : Prop :=
  s = { State.reset with
    cfg := s.cfg
    timeout := s.timeout
    pb := s.pb
    sw := s.sw
    devOpen := s.devOpen
    issuer := s.issuer
    trace := s.trace
    raises := s.raises
    weave := s.weave
    agenda := s.agenda }

/-- R324: the launch premises of the booted state: the device open, an INIT completed since `RESET`, no fault, nothing in
flight. -/
abbrev Booted (s : State) : Prop :=
  s.devOpen = true ∧ s.initDone = true ∧ s.fault = none ∧ s.halted = false ∧ s.seq = .idle ∧ s.lock = false ∧ s.tickBusy = false ∧
    s.expBusy = false

/-- R324: a run starts at reset or booted. -/
abbrev Launched (s : State) : Prop := AtReset s ∨ Booted s

/-- D46: every packet is answered, nothing is in flight, no timeout is pending, the poller is stopped and the block is
not halted. -/
abbrev RunOver (s : State) : Prop :=
  s.appWait = none ∧ s.handlerWait = none ∧ s.seq = .idle ∧ s.lock = false ∧ s.tickBusy = false ∧ s.expBusy = false ∧
    s.timeoutActive = false ∧ s.running = false ∧ s.halted = false

/-- R324: the end is good when in addition `FAULT = none`. -/
abbrev GoodEnd (s : State) : Prop := RunOver s ∧ s.fault = none

end Sys2Proof.Machine
end

