-- ==== Sys2Proof/Certificates/Slice0/Obligations.lean ====
section
/-!
DEFINITION. The statements for the provers, and the few functions they are written with.

An operation's completion is stated as the exact next state, so that it names its whole frame; what an operation may
change when it faults part-way is in the frame statements.
Every statement is about any parameter set (the state carries it); where one needs rule R6 it says so.
-/

namespace Sys2Proof.Claims

open Sys2Proof.Machine

/-- R161, R162: the bus bytes WRITE sends for its text, from a cached cursor. -/
def textBytes (c : Config) : List Byte → Byte → Byte → List (Bool × Byte)
  | [], _, _ => []
  | b :: rest, addr, row =>
    if b = c.newline then
      (false, c.cmdSetDdram ||| reduceDdram (rowOffset (nextRow row).toNat)) ::
        textBytes c rest (reduceDdram (rowOffset (nextRow row).toNat)) (nextRow row)
    else (true, b) :: textBytes c rest (nextAddr addr) row

/-- R161, R162: the cached address and row after a text. -/
def textCursor (c : Config) : List Byte → Byte → Byte → Byte × Byte
  | [], addr, row => (addr, row)
  | b :: rest, addr, row =>
    if b = c.newline then textCursor c rest (reduceDdram (rowOffset (nextRow row).toNat)) (nextRow row)
    else textCursor c rest (nextAddr addr) row

/-- R161: all bus bytes of WRITE. -/
def writeBytes (c : Config) (text : List Byte) (addr row : Byte) : List (Bool × Byte) :=
  (false, c.cmdSetDdram ||| addr) :: textBytes c text addr row

/-- A quiet operation's end: `u` but for the latch, which the bus bytes leave, and the trace, which they and the
response extend from `s`. -/
def answered (s : State) (bytes : List (Bool × Byte)) (v : Byte) (u : State) : State :=
  { u with
    pb := busesPb s.cfg bytes s.pb
    trace := s.trace ++ (busesEvents s.cfg bytes s.pb ++ [.resp s.issuer (.ok v)]) }

/-- R137: a raw nibble and its settle delay. -/
def rawEvents (c : Config) (n : Nibble) (pb : Byte) : List Event := nibbleEvents c n pb ++ [.dly .settle]

/-- R137: the events of INIT before function set. -/
def initRawEvents (c : Config) (pb : Byte) : List Event :=
  let p0 := setBit pb c.pinRs false
  let p1 := nibblePb c c.nibReset8 p0
  let p2 := nibblePb c c.nibReset8 p1
  let p3 := nibblePb c c.nibReset8 p2
  [.bw .pb c.pinRs false, .dly .setup0] ++ rawEvents c c.nibReset8 p0 ++ [.dly .setup1] ++ rawEvents c c.nibReset8 p1 ++
    [.dly .setup2] ++ rawEvents c c.nibReset8 p2 ++ rawEvents c c.nibTo4bit p3

/-- `PB` after them. -/
def initRawPb (c : Config) (pb : Byte) : Byte :=
  nibblePb c c.nibTo4bit (nibblePb c c.nibReset8 (nibblePb c c.nibReset8 (nibblePb c c.nibReset8
    (setBit pb c.pinRs false))))

/-- R137: the command bytes of INIT, in the source's order. -/
def initBytes (c : Config) : List (Bool × Byte) :=
  [(false, c.cmdFuncSet ||| c.initFs), (false, c.cmdDispCtrl ||| c.initDc), (false, c.cmdEntryMode ||| c.initEm),
    (false, c.cmdClear)]

/-- R137: all events of INIT. -/
def initEvents (c : Config) (pb : Byte) : List Event :=
  initRawEvents c pb ++ busesEvents c (initBytes c) (initRawPb c pb) ++ [.dly .clear]

/-- R181 to R186: the display-control toggles, with their mask and direction. -/
def dcToggle (c : Config) : Instr → Option (Byte × Bool)
  | .dispon => some (c.dcD, true)
  | .dispoff => some (c.dcD, false)
  | .curon => some (c.dcC, true)
  | .curoff => some (c.dcC, false)
  | .blinkon => some (c.dcB, true)
  | .blinkoff => some (c.dcB, false)
  | _ => none

/-- R189 to R192: the entry-mode toggles. -/
def emToggle (c : Config) : Instr → Option (Byte × Bool)
  | .ascron => some (c.emS, true)
  | .ascroff => some (c.emS, false)
  | .ltr => some (c.emId, true)
  | .rtl => some (c.emId, false)
  | _ => none

/-- R240 to R243: the session operations. -/
def isSession : Instr → Bool
  | .swrite _ => true
  | .swritet _ _ => true
  | .sdisp _ => true
  | .sbl _ => true
  | _ => false

/-- R242: the bus bytes of a session write's power-up. -/
def powerBytes (s : State) : List (Bool × Byte) :=
  if s.displayOn then [] else [(false, s.cfg.cmdDispCtrl ||| (s.dc ||| s.cfg.dcD))]

/-- R242: `PB` when a session write's WRITE part starts. -/
def poweredPb (s : State) : Byte :=
  if s.backlightOn then busesPb s.cfg (powerBytes s) s.pb
  else setBit (busesPb s.cfg (powerBytes s) s.pb) s.cfg.pinBl true

/-- R242: all events of a session write. -/
def swriteEvents (s : State) (text : List Byte) : List Event :=
  busesEvents s.cfg (powerBytes s) s.pb ++ (if s.backlightOn then [] else [.bw .pb s.cfg.pinBl true]) ++
    busesEvents s.cfg (writeBytes s.cfg text s.addr s.row) (poweredPb s)

/-- R242: the state a session write leaves, before its response. -/
def swritten (s : State) (text : List Byte) : State :=
  { s with
    dc := if s.displayOn then s.dc else s.dc ||| s.cfg.dcD
    displayOn := true
    backlightOn := true
    timeoutActive := false
    addr := (textCursor s.cfg text s.addr s.row).1
    row := (textCursor s.cfg text s.addr s.row).2
    pb := busesPb s.cfg (writeBytes s.cfg text s.addr s.row) (poweredPb s)
    trace := s.trace ++
      (swriteEvents s text ++ [.resp s.issuer (.ok (textCursor s.cfg text s.addr s.row).1)]) }

/-- R180, R264: the register writes an operation makes before its first register access. -/
def beforeFirstAccess (i : Instr) (s : State) : State :=
  match dcToggle s.cfg i, emToggle s.cfg i with
  | some (mask, on), _ => { s with dc := if on then s.dc ||| mask else s.dc &&& ~~~mask }
  | none, some (mask, on) => { s with em := if on then s.em ||| mask else s.em &&& ~~~mask }
  | none, none =>
    let forSession : State :=
      if s.displayOn then if s.backlightOn then { s with timeoutActive := false } else s
      else { s with dc := s.dc ||| s.cfg.dcD }
    match i with
    | .sdisp st => { s with dc := if st = 1 then s.dc ||| s.cfg.dcD else s.dc &&& ~~~s.cfg.dcD }
    | .swrite _ => forSession
    | .swritet _ _ => forSession
    | _ => s

/-- The schedule in which the access number `k` (from 0) of the activity fails and nothing intervenes. -/
def failAt (k : Nat) : List Slot := List.replicate k ⟨false, []⟩ ++ [⟨true, []⟩]

/-- The event is a register access of port B. -/
def isAccess : Event → Bool
  | .rd .pb _ => true
  | .wr .pb _ => true
  | .bw .pb _ _ => true
  | _ => false

/-- The event belongs to an LCD-touching activity: a register access of port B or a delay. -/
def isLcdEvent : Event → Bool
  | .dly _ => true
  | e => isAccess e

/-- How many events of a list meet a test. -/
def count (test : Event → Bool) (es : List Event) : Nat := (es.filter test).length

def isRd : Event → Bool
  | .rd _ _ => true
  | _ => false

def isWr : Event → Bool
  | .wr _ _ => true
  | _ => false

def isBw : Event → Bool
  | .bw _ _ _ => true
  | _ => false

def isDly : Event → Bool
  | .dly _ => true
  | _ => false

def isDlyOf (t : Wait) (e : Event) : Bool := decide (e = .dly t)

def isBwOf (i : Nat) : Event → Bool
  | .bw _ j _ => decide (j = i)
  | _ => false

/-- `s` with the next turn taken: `a`, with `w` woven into what it starts. -/
def taken (w : List Slot) (rest : List Turn) (s : State) : State := { s with agenda := rest, weave := w }

end Sys2Proof.Claims

open Sys2Proof Sys2Proof.Machine Sys2Proof.Claims

/-! ### Packets -/

/-- R90 to R93: the packet of every well-formed operation decodes to it, with every operand at every value. -/
def Obligations.DecodeEncodeRoundTrip : Prop :=
  ∀ i : Instr, i.WellFormed = true → decode (encode i) = .ok i

/-- R90, R91: a packet that decodes is the packet of the operation it decodes to, and that operation is well-formed. -/
def Obligations.PacketsHaveOneMeaning : Prop :=
  ∀ bytes i, decode bytes = .ok i → i.WellFormed = true ∧ encode i = bytes

/-- R94, R95: an empty packet is `BadLength`, an opcode outside the table `BadOpcode`, and under a legal opcode a packet
decodes exactly when it has its format's length, and is `BadLength` otherwise. -/
def Obligations.PacketLengthDecidesDecoding : Prop :=
  decode [] = .error .badLength ∧
    (∀ op rest, formatOf op = none → decode (op :: rest) = .error .badOpcode) ∧
    ∀ op rest f, formatOf op = some f →
      ((op :: rest).length = packetLength f (rest.getD 0 0) (rest.getD 1 0) → ∃ i, decode (op :: rest) = .ok i) ∧
        ((op :: rest).length ≠ packetLength f (rest.getD 0 0) (rest.getD 1 0) →
          decode (op :: rest) = .error .badLength)

/-- R91 to R95: packets of the spec's examples, one of each family, read byte by byte. -/
def Obligations.SamplePacketsDecode : Prop :=
  decode [0x01] = .ok .init ∧
    decode [0x10, 0x02, 0x00, 0x41, 0x42] = .ok (.write [0x41, 0x42]) ∧
    decode [0x11, 0xFF, 0x05] = .ok (.setcur (-1) 5) ∧
    decode [0x20] = .ok .dispon ∧
    decode [0x31, 0x01] = .ok (.writeg 1) ∧
    decode [0x41, 0x33, 0x02, 0x01, 0x02] = .ok (.regc 0x33 [1, 2]) ∧
    decode [0x42, 0x00, 0x00, 0x01, 0x00] = .ok (.setint 65536) ∧
    decode [0x51, 0x02, 0x00, 0x32, 0x00, 0x00, 0x00, 0x48, 0x69] = .ok (.swritet [0x48, 0x69] 50) ∧
    decode [0x02] = .error .badOpcode ∧
    decode [0x10, 0x02, 0x00, 0x41] = .error .badLength

/-- R90, R323: when the next turn is a packet that a context may deliver and that decodes to `i`, the step is `exec i`
in that context, with the turn's schedule; with no turn left the block waits (R300). Which packets a context may not
deliver is the model's reading of R323 (notes/assumptions/7.md). -/
def Obligations.StepRunsDecodedPacket : Prop :=
  (∀ s c bytes w rest i, s.agenda = ⟨.packet c bytes, w⟩ :: rest →
      packetBreach c (taken w rest s) = none → decode bytes = .ok i →
      step s = exec i { taken w rest s with issuer := c }) ∧
    ∀ s : State, s.agenda = [] → step s = .next s

/-- R94, R266: a packet that decodes to no operation is refused, with `Halted` tested first, and nothing else changes.
Which packets a context may not deliver is the model's reading of R323 (notes/assumptions/7.md). -/
def Obligations.UndecodablePacketRefused : Prop :=
  ∀ s c bytes w rest e, s.agenda = ⟨.packet c bytes, w⟩ :: rest →
    packetBreach c (taken w rest s) = none → decode bytes = .error e →
    step s = .next { taken w rest s with
      trace := s.trace ++ [.resp c (.refused (if s.halted then .halted else decodeReason e))] }

/-! ### The transfer primitives -/

/-- R102: a bus byte on the pins: the RS level once, then for the high and then the low nibble a read, the merged write,
the strobe with its two delays, then the settle delay; the values read and written are those of the latch. -/
def Obligations.BusByteOnThePins : Prop :=
  ∀ s rs v, Quiet s →
    let c := s.cfg
    let p1 := setBit s.pb c.pinRs rs
    let p2 := (p1 &&& 0xF0#8) ||| (v.extractLsb' 4 4).setWidth 8
    let p3 := setBit (setBit p2 c.pinEn true) c.pinEn false
    let p4 := (p3 &&& 0xF0#8) ||| (v.extractLsb' 0 4).setWidth 8
    let p5 := setBit (setBit p4 c.pinEn true) c.pinEn false
    sendBus rs v s = .ok { s with
      pb := p5
      seq := Seq.advance^[14] s.seq
      trace := s.trace ++
        [.bw .pb c.pinRs rs,
          .rd .pb p1, .wr .pb p2, .bw .pb c.pinEn true, .dly .pulse, .bw .pb c.pinEn false, .dly .pulse,
          .rd .pb p3, .wr .pb p4, .bw .pb c.pinEn true, .dly .pulse, .bw .pb c.pinEn false, .dly .pulse,
          .dly .settle] }

/-- R138: the event counts of the primitives, per bus byte by kind, and its minimum time. -/
def Obligations.EventCountsOfPrimitives : Prop :=
  ∀ s : State, Quiet s →
    (∀ b, ∃ t es, setRs b s = .ok t ∧ t.trace = s.trace ++ es ∧ es.length = 1) ∧
      (∃ t es, pulseEnable s = .ok t ∧ t.trace = s.trace ++ es ∧ es.length = 4) ∧
      (∀ n, ∃ t es, sendNibble n s = .ok t ∧ t.trace = s.trace ++ es ∧ es.length = 6) ∧
      (∀ v, ∃ t es, sendByte v s = .ok t ∧ t.trace = s.trace ++ es ∧ es.length = 12) ∧
      ∀ (rs : Bool) v, ∃ t es, (if rs then sendData v s else sendCommand v s) = .ok t ∧ t.trace = s.trace ++ es ∧
        es.length = 14 ∧ count isRd es = 2 ∧ count isWr es = 2 ∧ count isBw es = 5 ∧ count isDly es = 5 ∧
        count (isDlyOf .pulse) es = 4 ∧ count (isDlyOf .settle) es = 1 ∧
        (s.cfg.PinsOk → count (isBwOf s.cfg.pinRs) es = 1 ∧ count (isBwOf s.cfg.pinEn) es = 4) ∧
        leastDuration s.cfg es = 4 * s.cfg.tPulse + s.cfg.tSettle ∧
        (s.cfg = Config.p0 → leastDuration s.cfg es = 44)

/-- R139 a to d: with enable low at the start, enable is low at the end and at every read, bits 7:4 other than RS and
enable are kept, and RS and the data lines keep their last values. -/
def Obligations.TransfersKeepControlLines : Prop :=
  ∀ s t rs v, Quiet s → s.cfg.PinsOk → bitOf s.pb s.cfg.pinEn = false → sendBus rs v s = .ok t →
    bitOf t.pb s.cfg.pinEn = false ∧
      (∃ es, t.trace = s.trace ++ es ∧ ∀ p, .rd .pb p ∈ es → bitOf p s.cfg.pinEn = false) ∧
      (∀ k, 4 ≤ k → k < 8 → k ≠ s.cfg.pinRs → k ≠ s.cfg.pinEn → bitOf t.pb k = bitOf s.pb k) ∧
      bitOf t.pb s.cfg.pinRs = rs ∧ lowNibble t.pb = v.extractLsb' 0 4

/-- R77, R66: the observer of the pins recovers exactly the bus bytes sent, command or data, high nibble first. -/
def Obligations.ObserverRecoversBusBytes : Prop :=
  ∀ (c : Config) (bytes : List (Bool × Byte)) (pb : Byte), c.PinsOk → bitOf pb c.pinEn = false →
    busBytes c pb (busesEvents c bytes pb) = bytes ∧ bitOf (busesPb c bytes pb) c.pinEn = false

/-- R64: the latch of port B: a write sets it, a single-bit write changes that bit alone, a read returns it. -/
def Obligations.PortLatchReadBack : Prop :=
  (∀ s v, Quiet s → ∃ t, writePb v s = .ok t ∧ t.pb = v ∧ t.trace = s.trace ++ [.wr .pb v]) ∧
    (∀ s i b, Quiet s → ∃ t, bitWrite i b s = .ok t ∧ t.trace = s.trace ++ [.bw .pb i b] ∧
      t.pb = (s.pb &&& ~~~(1#8 <<< i)) ||| (if b then 1#8 <<< i else 0#8) ∧
      ∀ k < 8, bitOf t.pb k = if k = i then b else bitOf s.pb k) ∧
    ∀ s : State, Quiet s → ∃ t, readPb s = .ok t ∧ t.pb = s.pb ∧ t.trace = s.trace ++ [.rd .pb s.pb]

/-! ### INIT -/

/-- R137: INIT runs its whole sequence and loads FS, DC, EM, ADDR and ROW; that it has completed is kept (R302, R324). -/
def Obligations.InitCompletes : Prop :=
  ∀ s : State, Ready s →
    exec .init s = .next { s with
      fs := s.cfg.initFs
      dc := s.cfg.initDc
      em := s.cfg.initEm
      addr := 0
      row := 0
      initDone := true
      pb := busesPb s.cfg (initBytes s.cfg) (initRawPb s.cfg s.pb)
      trace := s.trace ++ (initEvents s.cfg s.pb ++ [.resp s.issuer (.ok 0)]) }

/-- R137, R77, R321: INIT's trace has 89 events of the stated kinds and least duration; the observer latches the four raw
nibbles of the legacy resets and the drop to 4-bit mode; whatever it saw before, also half a byte, it recovers the four
command bytes after the drop, and stands between two bytes at the end. That it tells an INIT by its setup delays is the
model's reading (notes/assumptions/24.md). -/
def Obligations.InitReachesFourBitMode : Prop :=
  ∀ s : State, Ready s → s.cfg.PinsOk → bitOf s.pb s.cfg.pinEn = false →
    let c := s.cfg
    ∃ t es, exec .init s = .next t ∧ t.trace = s.trace ++ (es ++ [.resp s.issuer (.ok 0)]) ∧
      es.length = 89 ∧ count isRd es = 12 ∧ count isWr es = 12 ∧ count isBw es = 29 ∧ count isDly es = 36 ∧
      (latched c s.pb es).take 4 =
        [(false, c.nibReset8), (false, c.nibReset8), (false, c.nibReset8), (false, c.nibTo4bit)] ∧
      (∀ f, watchBytes c ⟨f, s.pb⟩ es = initBytes c ∧ watchAfter c ⟨f, s.pb⟩ es = ⟨.paired none, t.pb⟩) ∧
      leastDuration c es =
        c.tSetup0 + c.tSetup1 + c.tSetup2 + 4 * (2 * c.tPulse + c.tSettle) + 4 * (4 * c.tPulse + c.tSettle) + c.tClear

/-! ### Text and cursor -/

/-- R161, R162: WRITE sends the set-address command to the current cursor and then its text byte by byte, a newline
moving the cursor to column 0 of the next row, and answers the resulting address. -/
def Obligations.WriteCompletes : Prop :=
  ∀ (s : State) (text : List Byte), Ready s →
    exec (.write text) s = .next (answered s (writeBytes s.cfg text s.addr s.row) (textCursor s.cfg text s.addr s.row).1
      { s with
        addr := (textCursor s.cfg text s.addr s.row).1
        row := (textCursor s.cfg text s.addr s.row).2 })

/-- R163, R160: SETCUR clamps, reduces modulo 80, sends, records the address and the row, and answers the address. -/
def Obligations.SetcurCompletes : Prop :=
  ∀ (s : State) (col row : Int), Ready s →
    let c : Nat := if col < 0 then 0 else if 39 < col then 39 else col.toNat
    let r : Nat := if row < 1 then 0 else 1
    let a : Byte := BitVec.ofNat 8 ((64 * r + c) % 80)
    exec (.setcur col row) s =
      .next (answered s [(false, s.cfg.cmdSetDdram ||| a)] a { s with addr := a, row := BitVec.ofNat 8 r })

/-- R164, R165: CLEAR and HOME send their command, wait both delays, and take the cached cursor home. -/
def Obligations.ClearAndHomeComplete : Prop :=
  ∀ (s : State) (i : Instr) (cmd : Byte), Ready s →
    (i = .clear ∧ cmd = s.cfg.cmdClear ∨ i = .home ∧ cmd = s.cfg.cmdHome) →
    exec i s = .next { s with
      addr := 0
      row := 0
      pb := busPb s.cfg false cmd s.pb
      trace := s.trace ++ (busEvents s.cfg false cmd s.pb ++ [.dly .clear, .resp s.issuer (.ok 0)]) }

/-- R166 a to e: the laws of the text family, on the observer of R77; for (e), the command bytes of a WRITE are the
first and one per newline, and they alone have RS clear. -/
def Obligations.TextFamilyLaws : Prop :=
  (∀ (s : State) (text : List Byte), Ready s → s.cfg.PinsOk → bitOf s.pb s.cfg.pinEn = false → s.addr.toNat < 80 →
      s.cfg.newline ∉ text →
      ∃ t es, exec (.write text) s = .next t ∧ t.trace = s.trace ++ (es ++ [.resp s.issuer (.ok t.addr)]) ∧
        busBytes s.cfg s.pb es = (false, s.cfg.cmdSetDdram ||| s.addr) :: text.map (fun b => (true, b)) ∧
        t.addr.toNat = (s.addr.toNat + text.length) % 80) ∧
    (∀ (s : State) (before after : List Byte), Ready s → s.cfg.PinsOk → bitOf s.pb s.cfg.pinEn = false →
      s.cfg.newline ∉ before → s.cfg.newline ∉ after →
      ∃ t, exec (.write (before ++ s.cfg.newline :: after)) s = .next t ∧
        t.row.toNat = (s.row.toNat + 1) % 2 ∧ t.addr.toNat = (rowOffset t.row.toNat + after.length) % 80 ∧
        ∃ es, t.trace = s.trace ++ (es ++ [.resp s.issuer (.ok t.addr)]) ∧
          busBytes s.cfg s.pb es = (false, s.cfg.cmdSetDdram ||| s.addr) :: (before.map (fun b => (true, b)) ++
            (false, s.cfg.cmdSetDdram ||| BitVec.ofNat 8 (rowOffset t.row.toNat)) :: after.map (fun b => (true, b)))) ∧
    (∀ (s : State) (col row : Int), exec (.setcur col row) s = exec (.setcur (clamp col 0 39) (clamp row 0 1)) s) ∧
    (∀ (s : State) (i : Instr), Ready s → i = .clear ∨ i = .home →
      ∃ t, exec i s = .next t ∧ t.addr = 0 ∧ t.row = 0) ∧
    (∀ (s : State) (text : List Byte), Ready s → s.cfg.PinsOk → bitOf s.pb s.cfg.pinEn = false →
      ∃ t es v, exec (.write text) s = .next t ∧ t.trace = s.trace ++ (es ++ [.resp s.issuer (.ok v)]) ∧
        (busBytes s.cfg s.pb es).map Prod.fst = false :: text.map (fun b => decide (b ≠ s.cfg.newline))) ∧
    ∀ (s : State) (i : Instr), Ready s → s.cfg.PinsOk → bitOf s.pb s.cfg.pinEn = false →
      (∃ col row, i = .setcur col row) ∨ i = .clear ∨ i = .home →
      ∃ t es v cmd, exec i s = .next t ∧ t.trace = s.trace ++ (es ++ [.resp s.issuer (.ok v)]) ∧
        busBytes s.cfg s.pb es = [(false, cmd)]

/-- R98, R161: a text written in two pieces leaves the cursor where one write of the whole text leaves it, and the bus sees
the same bytes but for one set-address command, to the cursor of that moment, before the second piece. -/
def Obligations.SplitTextLandsAlike : Prop :=
  ∀ (s : State) (first second : List Byte), Ready s → s.cfg.PinsOk → bitOf s.pb s.cfg.pinEn = false →
    ∃ t u v es fs gs x y z, exec (.write (first ++ second)) s = .next t ∧ exec (.write first) s = .next u ∧
      exec (.write second) u = .next v ∧ t.trace = s.trace ++ (es ++ [.resp s.issuer (.ok x)]) ∧
      u.trace = s.trace ++ (fs ++ [.resp s.issuer (.ok y)]) ∧ v.trace = u.trace ++ (gs ++ [.resp s.issuer (.ok z)]) ∧
      v.addr = t.addr ∧ v.row = t.row ∧
      ∃ sent, busBytes s.cfg s.pb es = busBytes s.cfg s.pb fs ++ sent ∧
        busBytes s.cfg u.pb gs = (false, s.cfg.cmdSetDdram ||| u.addr) :: sent

/-! ### Display attributes -/

/-- R180 to R186: each display-control toggle writes its bit of DC and sends the whole byte. -/
def Obligations.DisplayControlTogglesComplete : Prop :=
  ∀ (s : State) (i : Instr) (mask : Byte) (on : Bool), Ready s → dcToggle s.cfg i = some (mask, on) →
    let dc' := if on then s.dc ||| mask else s.dc &&& ~~~mask
    exec i s = .next (answered s [(false, s.cfg.cmdDispCtrl ||| dc')] 0 { s with dc := dc' })

/-- R180, R189 to R192: each entry-mode toggle writes its bit of EM and sends the whole byte. -/
def Obligations.EntryModeTogglesComplete : Prop :=
  ∀ (s : State) (i : Instr) (mask : Byte) (on : Bool), Ready s → emToggle s.cfg i = some (mask, on) →
    let em' := if on then s.em ||| mask else s.em &&& ~~~mask
    exec i s = .next (answered s [(false, s.cfg.cmdEntryMode ||| em')] 0 { s with em := em' })

/-- R187, R188: BLON and BLOFF write the backlight line and nothing else. -/
def Obligations.BacklightTogglesComplete : Prop :=
  ∀ (s : State) (on : Bool), Ready s →
    exec (if on then .blon else .bloff) s = .next { s with
      pb := setBit s.pb s.cfg.pinBl on
      trace := s.trace ++ [.bw .pb s.cfg.pinBl on, .resp s.issuer (.ok 0)] }

/-! ### Custom glyphs -/

/-- R200: STOREG sets the CGRAM address of the masked location and streams the eight rows. -/
def Obligations.StoregCompletes : Prop :=
  ∀ (s : State) (loc : Byte) (g : Glyph), Ready s →
    exec (.storeg loc g) s = .next (answered s
      [(false, s.cfg.cmdSetCgram ||| ((loc &&& 7) <<< s.cfg.cgramShift)),
        (true, g.r0), (true, g.r1), (true, g.r2), (true, g.r3), (true, g.r4), (true, g.r5), (true, g.r6), (true, g.r7)]
      0 s)

/-- R201: WRITEG sends the cursor and the unmasked location, advances the address by one and answers it. -/
def Obligations.WritegCompletes : Prop :=
  ∀ (s : State) (loc : Byte), Ready s →
    let a : Byte := BitVec.ofNat 8 ((s.addr.toNat + 1) % 80)
    exec (.writeg loc) s =
      .next (answered s [(false, s.cfg.cmdSetDdram ||| s.addr), (true, loc)] a { s with addr := a })

/-- R202 a to d: the laws of the glyph family, on the observer of R77: STOREG depends on the low three bits of its
location alone; it sends exactly one command byte and the eight rows in order; WRITEG sends exactly one command byte and
one data byte and advances `ADDR` by one modulo 80; neither writes `EM`, `DC`, `FS` or `ROW`. -/
def Obligations.GlyphFamilyLaws : Prop :=
  (∀ (s : State) (loc : Byte) (g : Glyph), exec (.storeg loc g) s = exec (.storeg (loc &&& 7) g) s) ∧
    (∀ (s : State) (loc : Byte) (g : Glyph), Ready s → s.cfg.PinsOk → bitOf s.pb s.cfg.pinEn = false →
      ∃ t es cmd, exec (.storeg loc g) s = .next t ∧ t.trace = s.trace ++ (es ++ [.resp s.issuer (.ok 0)]) ∧
        busBytes s.cfg s.pb es = (false, cmd) :: (glyphBytes g).map (fun d => (true, d))) ∧
    (∀ (s : State) (loc : Byte), Ready s → s.cfg.PinsOk → bitOf s.pb s.cfg.pinEn = false →
      ∃ t es cmd, exec (.writeg loc) s = .next t ∧ t.trace = s.trace ++ (es ++ [.resp s.issuer (.ok t.addr)]) ∧
        busBytes s.cfg s.pb es = [(false, cmd), (true, loc)] ∧ t.addr.toNat = (s.addr.toNat + 1) % 80) ∧
    ∀ (s t : State) (i : Instr), ((∃ loc g, i = .storeg loc g) ∨ ∃ loc, i = .writeg loc) →
      noReset s.weave = true → exec i s = .next t → t.em = s.em ∧ t.dc = s.dc ∧ t.fs = s.fs ∧ t.row = s.row

/-! ### The poller's operations -/

/-- R211: REGS with an index in 1..8 answers `OK` and stores its handler under `255 - 2^(i-1)` if that key is free; no
other entry changes. -/
def Obligations.RegsCompletes : Prop :=
  ∀ (s : State) (i h : Byte), s.halted = false → 1 ≤ i.toNat → i.toNat ≤ 8 →
    ∃ m, exec (.regs i h) s = .next { s with map := m, trace := s.trace ++ [.resp s.issuer (.ok 0)] } ∧
      ∀ a, Memory.read m a =
        if a = 255 - 2 ^ (i.toNat - 1) ∧ Memory.read s.map a = none then some h else Memory.read s.map a

/-- R212: REGC whose sum of powers is at most 254 answers `OK` and stores its handler under `254 - S` if that key is
free; no other entry changes. -/
def Obligations.RegcCompletes : Prop :=
  ∀ (s : State) (h : Byte) (indices : List Byte), s.halted = false →
    (indices.map (fun i : Byte => 2 ^ i.toNat)).sum ≤ 254 →
    ∃ m, exec (.regc h indices) s = .next { s with map := m, trace := s.trace ++ [.resp s.issuer (.ok 0)] } ∧
      ∀ a, Memory.read m a =
        if a = 254 - (indices.map (fun i : Byte => 2 ^ i.toNat)).sum ∧ Memory.read s.map a = none then some h
        else Memory.read s.map a

/-- R222, R221: the keys of REGS and REGC meet where `S = 2^(i-1) - 1`, in particular for `[]`, `[0]` and `[0, 1]`, at
254, 253 and 251; the order of a combination's indices does not matter; whichever handler comes first under a key is
kept; no key is 255. -/
def Obligations.RegistrationKeys : Prop :=
  (∀ (i : Byte) (indices : List Byte), 1 ≤ i.toNat → i.toNat ≤ 8 → comboSum indices = 2 ^ (i.toNat - 1) - 1 →
      comboKey indices = singleKey i) ∧
    (comboKey [] = some 254 ∧ singleKey 1 = some 254) ∧ (comboKey [0] = some 253 ∧ singleKey 2 = some 253) ∧
    (comboKey [0, 1] = some 251 ∧ singleKey 3 = some 251) ∧
    (∀ l l' : List Byte, l.Perm l' → comboKey l = comboKey l') ∧
    (∀ (m : Memory) (a : Nat) (h h' : Byte), Memory.read m a = none →
      Memory.read (Memory.register (Memory.register m a h) a h') a = some h) ∧
    (∀ i, singleKey i ≠ some 255) ∧ ∀ l, comboKey l ≠ some 255

/-- R213: SETINT of a period other than 0: while idle it loads the interval, while polling with no tick in flight it
restarts in the same step, while a tick is in flight its context is held with no response. -/
def Obligations.SetintCompletes : Prop :=
  ∀ (s : State) (ms : Word32), s.halted = false → ms ≠ 0 →
    exec (.setint ms) s = .next (
      if s.running = true ∧ s.tickBusy = true then setWait s.issuer (some (.setint ms)) s
      else { s with interval := ms, trace := s.trace ++ [.resp s.issuer (.ok 0)] })

/-- R214, R215: POLLSTART and POLLSTOP, no-ops when there is nothing to do; POLLSTOP is held while a tick is in flight. -/
def Obligations.PollstartAndPollstopComplete : Prop :=
  ∀ s : State, s.halted = false →
    exec .pollstart s = .next { s with running := true, trace := s.trace ++ [.resp s.issuer (.ok 0)] } ∧
      exec .pollstop s = .next (
        if s.running = true ∧ s.tickBusy = true then setWait s.issuer (some .pollstop) s
        else { s with running := false, trace := s.trace ++ [.resp s.issuer (.ok 0)] })

/-- R213, R215, R314: the step of a held operation: nothing while a tick is in flight, and its end as soon as none is. -/
def Obligations.HeldOperationsEnd : Prop :=
  ∀ s c w rest held, s.agenda = ⟨.resume c, w⟩ :: rest → waitOf c s = some held → s.halted = false →
    step s = .next (
      if s.tickBusy then taken w rest s
      else
        match held with
        | .pollstop => setWait c none { taken w rest s with running := false, trace := s.trace ++ [.resp c (.ok 0)] }
        | .setint ms =>
          setWait c none { taken w rest s with
            running := true, interval := ms, trace := s.trace ++ [.resp c (.ok 0)] })

/-! ### The session -/

/-- R240: SDISP in its four cases: each no-op answers and does nothing else, also with the device closed; switching on
sends the display command; switching off sends it and then the backlight line, if the light was on. That the no-op keeps the light is R240's pseudocode,
chosen over R246 a (notes/assumptions/23.md). -/
def Obligations.SdispCompletes : Prop :=
  (∀ s : State, s.halted = false → s.displayOn = true →
      exec (.sdisp 1) s = .next { s with trace := s.trace ++ [.resp s.issuer (.ok 0)] }) ∧
    (∀ s : State, s.halted = false → s.displayOn = false →
      exec (.sdisp 0) s = .next { s with trace := s.trace ++ [.resp s.issuer (.ok 0)] }) ∧
    (∀ s : State, Ready s → s.displayOn = false →
      exec (.sdisp 1) s = .next (answered s [(false, s.cfg.cmdDispCtrl ||| (s.dc ||| s.cfg.dcD))] 0
        { s with dc := s.dc ||| s.cfg.dcD, displayOn := true })) ∧
    ∀ s : State, Ready s → s.displayOn = true →
      let cmd := s.cfg.cmdDispCtrl ||| (s.dc &&& ~~~s.cfg.dcD)
      exec (.sdisp 0) s = .next { s with
        dc := s.dc &&& ~~~s.cfg.dcD
        displayOn := false
        backlightOn := false
        pb := if s.backlightOn then setBit (busPb s.cfg false cmd s.pb) s.cfg.pinBl false else busPb s.cfg false cmd s.pb
        trace := s.trace ++ (busEvents s.cfg false cmd s.pb ++
          (if s.backlightOn then [.bw .pb s.cfg.pinBl false] else []) ++ [.resp s.issuer (.ok 0)]) }

/-- R241: SBL writes the line and the flag when the state changes, and only answers when it does not. -/
def Obligations.SblCompletes : Prop :=
  (∀ (s : State) (on : Bool), s.halted = false → s.backlightOn = on →
      exec (.sbl (if on then 1 else 0)) s = .next { s with trace := s.trace ++ [.resp s.issuer (.ok 0)] }) ∧
    ∀ (s : State) (on : Bool), Ready s → s.backlightOn = !on →
      exec (.sbl (if on then 1 else 0)) s = .next { s with
        backlightOn := on
        pb := setBit s.pb s.cfg.pinBl on
        trace := s.trace ++ [.bw .pb s.cfg.pinBl on, .resp s.issuer (.ok 0)] }

/-- R242: SWRITE powers up what is off, cancels a pending timer and writes. -/
def Obligations.SwriteCompletes : Prop :=
  ∀ (s : State) (text : List Byte), Ready s → (s.timeoutActive = true → s.expBusy = false) →
    exec (.swrite text) s = .next (swritten s text)

/-- R243: SWRITET does what SWRITE does and starts the one-shot timer. -/
def Obligations.SwritetCompletes : Prop :=
  ∀ (s : State) (text : List Byte) (ms : Word32), Ready s → (s.timeoutActive = true → s.expBusy = false) →
    exec (.swritet text ms) s = .next { swritten s text with timeout := ms, timeoutActive := true }

/-- R244: the expiry cancels itself, clears, switches the display off, and the backlight with it, and answers nobody.
R264, R271: with the device closed it cancels itself, raises `DeviceNotOpen` and ends; if event number `k` of its quiet run
is a register access that the environment fails, it has exactly the first `k` events and the latch they leave, the fault is
recorded with its position, `EXPBUSY` and the sequencer are free, and nobody is answered.
That the backlight is kept where the session already holds the display off is R240's pseudocode, chosen over R246 a
(notes/assumptions/23.md). -/
def Obligations.ExpireCompletes : Prop :=
  (∀ s rest, s.agenda = ⟨.offt, []⟩ :: rest → s.timeoutActive = true → s.halted = false → s.seq = .idle →
    s.devOpen = true →
    let c := s.cfg
    let dc' := s.dc &&& ~~~c.dcD
    let p1 := busPb c false c.cmdClear s.pb
    let p2 := busPb c false (c.cmdDispCtrl ||| dc') p1
    let cleared := s.trace ++ (busEvents c false c.cmdClear s.pb ++ [.dly .clear])
    step s = .next (
      if s.displayOn then
        { taken [] rest s with
          timeoutActive := false
          expBusy := false
          addr := 0
          row := 0
          dc := dc'
          displayOn := false
          backlightOn := false
          pb := if s.backlightOn then setBit p2 c.pinBl false else p2
          trace := cleared ++ (busEvents c false (c.cmdDispCtrl ||| dc') p1 ++
            if s.backlightOn then [.bw .pb c.pinBl false] else []) }
      else
        { taken [] rest s with
          timeoutActive := false
          expBusy := false
          addr := 0
          row := 0
          pb := p1
          trace := cleared })) ∧
    (∀ s w rest, s.agenda = ⟨.offt, w⟩ :: rest → s.timeoutActive = true → s.halted = false → s.seq = .idle →
      s.devOpen = false →
      step s = .next { taken w rest s with
        timeoutActive := false
        expBusy := false
        fault := s.fault.or (some .deviceNotOpen)
        raises := s.raises ++ [.deviceNotOpen .expire 0] }) ∧
    ∀ s t rest es k e, s.agenda = ⟨.offt, []⟩ :: rest → s.timeoutActive = true → s.halted = false → s.seq = .idle →
      s.devOpen = true → step s = .next t → t.trace = s.trace ++ es → es[k]? = some e → isAccess e = true →
      ∃ u, step { s with agenda := ⟨.offt, failAt k⟩ :: rest } = .next u ∧ u.trace = s.trace ++ es.take k ∧
        u.pb = latchAfter s.pb (es.take k) ∧ u.seq = .idle ∧ u.expBusy = false ∧ u.timeoutActive = false ∧
        u.halted = false ∧ u.agenda = rest ∧ u.fault = s.fault.or (some .ioFault) ∧
        u.raises = s.raises ++ [.ioFault .expire k]

/-! ### The tick -/

/-- R216, R217, R264: a firing of the poll timer while polling with no tick in flight reads the switches; a read that
fails, or a closed device, is recorded and ends the tick with `LAST` kept. -/
def Obligations.TickSamplesSwitches : Prop :=
  ∀ s readOk w rest, s.agenda = ⟨.pollt readOk, w⟩ :: rest → s.halted = false → s.tick = .idle → s.running = true →
    s.tickBusy = false →
    step s = .next (
      if s.devOpen = true ∧ readOk = true then
        { taken w rest s with tickBusy := true, tick := .sampled s.sw, trace := s.trace ++ [.rd .sw s.sw] }
      else if s.devOpen = true then
        { taken w rest s with fault := s.fault.or (some .ioFault), raises := s.raises ++ [.ioFault .tick 0] }
      else
        { taken w rest s with
          fault := s.fault.or (some .deviceNotOpen), raises := s.raises ++ [.deviceNotOpen .tick 0] })

/-- R216, R220: a value equal to `LAST` ends the tick and changes nothing else; a new value is recorded; with a handler
registered for the whole byte and the lock free, the lock is taken and the handler dispatched. -/
def Obligations.TickFiltersAndDispatches : Prop :=
  ∀ s readOk w rest v, s.agenda = ⟨.pollt readOk, w⟩ :: rest → s.halted = false → s.tick = .sampled v →
    (v = s.last → step s = .next { taken w rest s with tick := .idle, tickBusy := false }) ∧
      (v ≠ s.last → Memory.read s.map v.toNat = none →
        step s = .next { taken w rest s with last := v, tick := .idle, tickBusy := false }) ∧
      ∀ h, v ≠ s.last → Memory.read s.map v.toNat = some h → s.lock = false →
        step s = .next { taken w rest s with
          last := v, lock := true, tick := .inHandler h, trace := s.trace ++ [.disp h] }

/-- R101, R216, R218, R219, R263: `HRET` ends the hold; after it a completed handler's tick releases the lock and ends,
a failed handler's releases the lock, records `HandlerFault` and halts the block with `TICKBUSY` as it was. That a handler
whose own operation has not answered cannot return is the model's reading of R323 (notes/assumptions/7.md). -/
def Obligations.HandlerReturnEndsTick : Prop :=
  (∀ s ok w rest h, s.agenda = ⟨.hret ok, w⟩ :: rest → s.tick = .inHandler h → contextBusy .handler s = false →
      step s = .next { taken w rest s with tick := .returned h ok, trace := s.trace ++ [.hret ok] }) ∧
    (∀ s readOk w rest h, s.agenda = ⟨.pollt readOk, w⟩ :: rest → s.halted = false → s.tick = .returned h true →
      step s = .next { taken w rest s with lock := false, tick := .idle, tickBusy := false }) ∧
    ∀ s readOk w rest h, s.agenda = ⟨.pollt readOk, w⟩ :: rest → s.halted = false → s.tick = .returned h false →
      step s = .next { taken w rest s with
        lock := false
        tick := .idle
        halted := true
        fault := s.fault.or (some .handlerFault)
        raises := s.raises ++ [.handlerFault h] }

/-- R217, R263: a firing of the poll timer while a handler runs, while the poller is idle, or in a halted block, is
dropped: nothing changes. -/
def Obligations.TicksAreDropped : Prop :=
  ∀ s readOk w rest, s.agenda = ⟨.pollt readOk, w⟩ :: rest →
    ((∃ h, s.tick = .inHandler h) ∨ (s.tick = .idle ∧ (s.running = false ∨ s.tickBusy = true)) ∨ s.halted = true) →
    step s = .next (taken w rest s)

/-! ### Refusals and faults -/

/-- R263, R266: a halted block refuses every operation with `Halted`, and nothing else changes. -/
def Obligations.HaltedBlockRefuses : Prop :=
  ∀ (i : Instr) (s : State), s.halted = true →
    exec i s = .next { s with trace := s.trace ++ [.resp s.issuer (.refused .halted)] }

/-- R266: which operands are outside their domain, and that such an operation is refused `BadOperand`, before any other
complaint but `Halted`, with nothing else changed. -/
def Obligations.OutOfDomainOperandsRefused : Prop :=
  ∀ (i : Instr) (s : State), s.halted = false →
    ((∃ n h : Byte, i = .regs n h ∧ (n.toNat < 1 ∨ 8 < n.toNat)) ∨
      (∃ h l, i = .regc h l ∧ 254 < (l.map (fun n : Byte => 2 ^ n.toNat)).sum) ∨ i = .setint 0 ∨
      ∃ st : Byte, 1 < st.toNat ∧ (i = .sdisp st ∨ i = .sbl st)) →
    exec i s = .next { s with trace := s.trace ++ [.resp s.issuer (.refused .badOperand)] }

/-- R265: a packet that arrives while an activity is in flight and whose operation would touch port B raises
`ConcurrentLcd` before it writes anything: the fault is recorded (the first one stays), its context answered, and the
activity in flight left alone. `exec` answers alike, though the model's steps start an operation in no such state, and which
packets a context may not deliver is the model's reading (notes/assumptions/2.md, 7.md). -/
def Obligations.OverlapIsConcurrentLcd : Prop :=
  (∀ (c : Ctx) (bytes : List Byte) (i : Instr) (s : State) (op inFlight : OpName) (a : Agent) (n : Nat),
      s.halted = false → packetBreach c s = none → decode bytes = .ok i → operandOk i = true →
      touches i s = some op → s.seq = .busy a inFlight n →
      act (.packet c bytes) s = .ok { s with
        fault := s.fault.or (some .concurrentLcd)
        raises := s.raises ++ [.concurrentLcd op inFlight]
        trace := s.trace ++ [.resp c (.fault .concurrentLcd)] }) ∧
    ∀ (i : Instr) (s : State) (op inFlight : OpName) (a : Agent) (n : Nat), s.halted = false → operandOk i = true →
      touches i s = some op → s.seq = .busy a inFlight n →
      exec i s = .next { s with
        fault := s.fault.or (some .concurrentLcd)
        raises := s.raises ++ [.concurrentLcd op inFlight]
        trace := s.trace ++ [.resp s.issuer (.fault .concurrentLcd)] }

/-- R244, R265: an expiry that starts while an activity is in flight cancels itself, raises `ConcurrentLcd` and does
nothing else. -/
def Obligations.ExpiryDuringTransferCollides : Prop :=
  ∀ (s : State) (a : Agent) (inFlight : OpName) (n : Nat), s.halted = false → s.timeoutActive = true →
    s.seq = .busy a inFlight n →
    act .offt s = .ok { s with
      timeoutActive := false
      expBusy := false
      fault := s.fault.or (some .concurrentLcd)
      raises := s.raises ++ [.concurrentLcd .expire inFlight] }

/-- R264, R136: with the device closed an operation that touches port B makes the register writes before its first
access, raises `DeviceNotOpen` there, answers it, and nothing reaches port B. -/
def Obligations.ClosedDeviceFaults : Prop :=
  ∀ (i : Instr) (s : State) (op : OpName), s.halted = false → operandOk i = true → touches i s = some op →
    s.seq = .idle → s.devOpen = false → (s.timeoutActive = true → s.expBusy = false) →
    exec i s = .next { beforeFirstAccess i s with
      fault := s.fault.or (some .deviceNotOpen)
      raises := s.raises ++ [.deviceNotOpen op 0]
      trace := s.trace ++ [.resp s.issuer (.fault .deviceNotOpen)] }

/-- R136, R262, R271: faults are precise at the grain of one primitive: if the quiet run of an operation has the events
`es` and event number `k` is a register access that the environment fails, the run has exactly the first `k` events,
the latch they leave, the fault recorded with its position, the sequencer free and the fault answered. -/
def Obligations.FaultsArePrecise : Prop :=
  ∀ (i : Instr) (s t : State) (es : List Event) (r : Response) (k : Nat) (e : Event),
    Ready s → exec i s = .next t → t.trace = s.trace ++ (es ++ [.resp s.issuer r]) → es[k]? = some e → isAccess e = true →
    ∃ u op, touches i s = some op ∧ exec i { s with weave := failAt k } = .next u ∧
      u.trace = s.trace ++ (es.take k ++ [.resp s.issuer (.fault .ioFault)]) ∧
      u.pb = latchAfter s.pb (es.take k) ∧ u.seq = .idle ∧ u.halted = false ∧
      u.fault = s.fault.or (some .ioFault) ∧ u.raises = s.raises ++ [.ioFault op k]

/-- R30, R265, R303, R307: whatever the other agents do between an operation's events, in a run that records no fault and
is not reset the operation does to the LCD side exactly what it does undisturbed: the same port events in the same order,
the same latch, cached registers and session flags. That what the others do is data of the operation's schedule is the
model's reading of R303 (notes/assumptions/2.md). -/
def Obligations.InterleavingLeavesOperationAlone : Prop :=
  ∀ (i : Instr) (s t : State), noReset s.weave = true → exec i s = .next t → t.fault = none →
    ∃ u, exec i { s with weave := [] } = .next u ∧ u.fault = none ∧
      t.trace.filter isLcdEvent = u.trace.filter isLcdEvent ∧
      t.pb = u.pb ∧ t.addr = u.addr ∧ t.row = u.row ∧ t.em = u.em ∧ t.fs = u.fs ∧ t.dc = u.dc ∧
      t.displayOn = u.displayOn ∧ t.backlightOn = u.backlightOn ∧ t.timeoutActive = u.timeoutActive ∧
      t.timeout = u.timeout ∧ t.seq = u.seq

/-! ### Reset and the whole machine -/

/-- R35, R300, R318: a reset gives every register of the block its reset value, abandons what is in flight, closes the
device and emits nothing; port B is 0x00 after a power-on and kept on a restart; the switches are not touched. The values
of `TIMEOUT`, and the parameters, trace and schedule it keeps, are the model's (notes/assumptions/3.md, 6.md). -/
def Obligations.ResetRestoresRegisters : Prop :=
  ∀ s powerOn w rest, s.agenda = ⟨.reset powerOn, w⟩ :: rest → ∃ t, step s = .next t ∧
    t.addr = 0 ∧ t.em = 0 ∧ t.fs = 0 ∧ t.dc = 0 ∧ t.row = 0 ∧ t.last = 255 ∧ t.interval = 100 ∧ t.running = false ∧
    (∀ a, Memory.read t.map a = none) ∧ t.displayOn = false ∧ t.backlightOn = false ∧ t.timeoutActive = false ∧
    t.seq = .idle ∧ t.lock = false ∧ t.tickBusy = false ∧ t.expBusy = false ∧ t.fault = none ∧ t.halted = false ∧
    t.devOpen = false ∧ t.tick = .idle ∧ t.appWait = none ∧ t.handlerWait = none ∧ t.initDone = false ∧
    t.pb = (if powerOn then 0 else s.pb) ∧ t.sw = s.sw ∧ t.trace = s.trace

/-- R20, R28, R35, R221: the invariant of the block holds at reset. The parameter set there is P0, which the spec gives
from general knowledge (notes/assumptions/1.md). -/
def Obligations.ResetMeetsInvariant : Prop := BlockInv State.reset

/-- R20 to R28, R30, R31, R34, R218, R221, R245, R263: every step keeps the invariant: the cached registers hold legal
values, the map is canonical and `MAP[255]` is `none`, the lock is held exactly while a handler runs, and between steps
nothing is in flight unless the block is halted, which it is only with a fault recorded. It speaks of the model's states
between activities, not of those inside one, where the steps of other agents are woven: that nothing is in flight there, what
`SEQ` and `EXPBUSY` are in a halted block, and that a handler's held operation outlasts no handler, are the model's reading
(notes/assumptions/2.md, 8.md, 7.md). -/
def Obligations.StepKeepsInvariant : Prop :=
  ∀ s t : State, BlockInv s → step s = .next t → BlockInv t

/-- R32, R271, R272: the first fault stays recorded until a reset. -/
def Obligations.FirstFaultIsSticky : Prop :=
  ∀ (s t : State) (f : FaultCode), s.fault = some f → nextNoReset s = true → step s = .next t → t.fault = some f

/-- R28: a registered handler is never changed or removed until a reset. -/
def Obligations.RegistrationsAreKept : Prop :=
  ∀ (s t : State) (a : Nat) (h : Byte), Memory.read s.map a = some h → nextNoReset s = true → step s = .next t →
    Memory.read t.map a = some h

/-- No step changes the parameters, and every step, a reset too, only appends to the trace. Both are the model's own
bookkeeping of R5's parameters and R9's trace: that the parameters stand in the state is notes/assumptions/1.md, that they
and the trace survive a reset notes/assumptions/6.md. -/
def Obligations.ParametersFixedAndTraceGrows : Prop :=
  ∀ s t : State, step s = .next t → t.cfg = s.cfg ∧ ∃ es, t.trace = s.trace ++ es

/-- R263, R324: a halted block takes no step but a reset: it answers packets `Halted`, and otherwise only its environment
changes. -/
def Obligations.HaltedBlockStaysHalted : Prop :=
  ∀ s t : State, FlightLegal s → s.halted = true → nextNoReset s = true → step s = .next t →
    t = { s with
      sw := t.sw
      devOpen := t.devOpen
      trace := t.trace
      weave := t.weave
      agenda := t.agenda
      issuer := t.issuer } ∧
      ∃ es, t.trace = s.trace ++ es ∧ ∀ e ∈ es, ∃ c, e = .resp c (.refused .halted)

/-- R34: `LAST` and `LOCK` are written only by the tick. -/
def Obligations.LastAndLockOnlyByTick : Prop :=
  ∀ s t turn rest, s.agenda = turn :: rest → turn.noReset = true → isPollt turn.act = false →
    weaveAll (fun a => !isPollt a) turn.weave = true → step s = .next t → t.last = s.last ∧ t.lock = s.lock

/-- R29, R34, R311: the driver-level operations never write the session's flags or its timer, whatever is woven in but a
reset; only an expiry may take the pending flag down meanwhile. -/
def Obligations.DriverOperationsBypassSession : Prop :=
  ∀ (i : Instr) (s t : State), isSession i = false → noReset s.weave = true → exec i s = .next t →
    t.displayOn = s.displayOn ∧ t.backlightOn = s.backlightOn ∧ t.timeout = s.timeout ∧
      (t.timeoutActive = true → s.timeoutActive = true)

/-! ### Frames: what an operation may change, also when it faults part-way -/

/-- R161 to R165, R201: WRITE, SETCUR, CLEAR, HOME and WRITEG write `ADDR`, `ROW` (WRITEG only `ADDR`) and the latch. -/
def Obligations.FrameOfCursorOperations : Prop :=
  ∀ (i : Instr) (s t : State),
    ((∃ text, i = .write text) ∨ (∃ col row, i = .setcur col row) ∨ i = .clear ∨ i = .home ∨ ∃ loc, i = .writeg loc) →
    Alone s → exec i s = .next t →
    t = { s with
      addr := t.addr
      row := t.row
      pb := t.pb
      seq := t.seq
      fault := t.fault
      trace := t.trace
      raises := t.raises
      weave := t.weave } ∧
      ((∃ loc, i = .writeg loc) → t.row = s.row)

/-- R180 to R192: a flag operation writes at most its one bit of its one cached byte, and the latch. -/
def Obligations.FrameOfToggles : Prop :=
  (∀ (i : Instr) (s t : State) (mask : Byte) (on : Bool), dcToggle s.cfg i = some (mask, on) → Alone s →
      exec i s = .next t →
      t = { s with
        dc := t.dc
        pb := t.pb
        seq := t.seq
        fault := t.fault
        trace := t.trace
        raises := t.raises
        weave := t.weave } ∧
        (t.dc = s.dc ∨ t.dc = if on then s.dc ||| mask else s.dc &&& ~~~mask)) ∧
    ∀ (i : Instr) (s t : State) (mask : Byte) (on : Bool), emToggle s.cfg i = some (mask, on) → Alone s →
      exec i s = .next t →
      t = { s with
        em := t.em
        pb := t.pb
        seq := t.seq
        fault := t.fault
        trace := t.trace
        raises := t.raises
        weave := t.weave } ∧
        (t.em = s.em ∨ t.em = if on then s.em ||| mask else s.em &&& ~~~mask)

/-- R187, R188, R200, R137: BLON, BLOFF and STOREG write the latch and no register; INIT writes `FS`, `DC`, `EM`, `ADDR`,
`ROW`, the latch, and the model's mark of a completed INIT. -/
def Obligations.FrameOfPortOperations : Prop :=
  (∀ (i : Instr) (s t : State), (i = .blon ∨ i = .bloff ∨ ∃ loc g, i = .storeg loc g) → Alone s → exec i s = .next t →
      t = { s with
        pb := t.pb
        seq := t.seq
        fault := t.fault
        trace := t.trace
        raises := t.raises
        weave := t.weave }) ∧
    ∀ s t : State, Alone s → exec .init s = .next t →
      t = { s with
        fs := t.fs
        dc := t.dc
        em := t.em
        addr := t.addr
        row := t.row
        initDone := t.initDone
        pb := t.pb
        seq := t.seq
        fault := t.fault
        trace := t.trace
        raises := t.raises
        weave := t.weave }

/-- R211 to R215: REGS and REGC write the map, at their key alone; SETINT writes the interval, POLLSTART and POLLSTOP
write RUNNING, and SETINT and POLLSTOP may hold their context; the trace grows by at most the one response, and nothing
else changes, whatever the schedule holds. -/
def Obligations.FrameOfPollerOperations : Prop :=
  (∀ (i : Instr) (s t : State) (key : Option Nat),
      ((∃ n h, i = .regs n h ∧ key = singleKey n) ∨ ∃ h l, i = .regc h l ∧ key = comboKey l) → exec i s = .next t →
      t = { s with map := t.map, trace := t.trace } ∧
        ∀ a, key ≠ some a → Memory.read t.map a = Memory.read s.map a) ∧
    (∀ (s t : State) (ms : Word32), exec (.setint ms) s = .next t →
      t = { s with
        interval := t.interval
        appWait := t.appWait
        handlerWait := t.handlerWait
        trace := t.trace }) ∧
    (∀ s t : State, exec .pollstart s = .next t → t = { s with running := t.running, trace := t.trace }) ∧
    (∀ s t : State, exec .pollstop s = .next t →
      t = { s with
        running := t.running
        appWait := t.appWait
        handlerWait := t.handlerWait
        trace := t.trace }) ∧
    ∀ (i : Instr) (s t : State), (∃ n h, i = .regs n h) ∨ (∃ h l, i = .regc h l) ∨ (∃ ms, i = .setint ms) ∨
      i = .pollstart ∨ i = .pollstop → exec i s = .next t →
      t.trace = s.trace ∨ ∃ r, t.trace = s.trace ++ [.resp s.issuer r]

/-- R240 to R243: SDISP may write `DC` in its display bit, both session flags and the latch; SBL the backlight flag and
the latch; SWRITE and SWRITET `DC` in its display bit, the session flags, the pending flag, the cursor and the latch, and
`TIMEOUT` only SWRITET. -/
def Obligations.FrameOfSessionOperations : Prop :=
  (∀ (s t : State) (st : Byte), Alone s → exec (.sdisp st) s = .next t →
      t = { s with
        dc := t.dc
        displayOn := t.displayOn
        backlightOn := t.backlightOn
        pb := t.pb
        seq := t.seq
        fault := t.fault
        trace := t.trace
        raises := t.raises
        weave := t.weave } ∧
        (t.dc = s.dc ∨ t.dc = s.dc ||| s.cfg.dcD ∨ t.dc = s.dc &&& ~~~s.cfg.dcD)) ∧
    (∀ (s t : State) (st : Byte), Alone s → exec (.sbl st) s = .next t →
      t = { s with
        backlightOn := t.backlightOn
        pb := t.pb
        seq := t.seq
        fault := t.fault
        trace := t.trace
        raises := t.raises
        weave := t.weave }) ∧
    ∀ (i : Instr) (s t : State) (text : List Byte), (i = .swrite text ∨ ∃ ms, i = .swritet text ms) → Alone s →
      exec i s = .next t →
      t = { s with
        dc := t.dc
        displayOn := t.displayOn
        backlightOn := t.backlightOn
        timeoutActive := t.timeoutActive
        timeout := t.timeout
        addr := t.addr
        row := t.row
        pb := t.pb
        seq := t.seq
        fault := t.fault
        trace := t.trace
        raises := t.raises
        weave := t.weave } ∧
        (t.dc = s.dc ∨ t.dc = s.dc ||| s.cfg.dcD) ∧ (i = .swrite text → t.timeout = s.timeout)
end

