-- ==== Sys2Proof/Laws/State.lean ====
section
/-!
SUPPORT. The named record updates of the machine, field by field, so that no proof unfolds one.
-/

namespace Sys2Proof.Machine

@[simp] theorem emit_cfg (e : Event) (s : State) : (emit e s).cfg = s.cfg := rfl
@[simp] theorem emit_addr (e : Event) (s : State) : (emit e s).addr = s.addr := rfl
@[simp] theorem emit_row (e : Event) (s : State) : (emit e s).row = s.row := rfl
@[simp] theorem emit_em (e : Event) (s : State) : (emit e s).em = s.em := rfl
@[simp] theorem emit_fs (e : Event) (s : State) : (emit e s).fs = s.fs := rfl
@[simp] theorem emit_dc (e : Event) (s : State) : (emit e s).dc = s.dc := rfl
@[simp] theorem emit_last (e : Event) (s : State) : (emit e s).last = s.last := rfl
@[simp] theorem emit_interval (e : Event) (s : State) : (emit e s).interval = s.interval := rfl
@[simp] theorem emit_running (e : Event) (s : State) : (emit e s).running = s.running := rfl
@[simp] theorem emit_map (e : Event) (s : State) : (emit e s).map = s.map := rfl
@[simp] theorem emit_displayOn (e : Event) (s : State) : (emit e s).displayOn = s.displayOn := rfl
@[simp] theorem emit_backlightOn (e : Event) (s : State) : (emit e s).backlightOn = s.backlightOn := rfl
@[simp] theorem emit_timeoutActive (e : Event) (s : State) : (emit e s).timeoutActive = s.timeoutActive := rfl
@[simp] theorem emit_timeout (e : Event) (s : State) : (emit e s).timeout = s.timeout := rfl
@[simp] theorem emit_seq (e : Event) (s : State) : (emit e s).seq = s.seq := rfl
@[simp] theorem emit_lock (e : Event) (s : State) : (emit e s).lock = s.lock := rfl
@[simp] theorem emit_tickBusy (e : Event) (s : State) : (emit e s).tickBusy = s.tickBusy := rfl
@[simp] theorem emit_expBusy (e : Event) (s : State) : (emit e s).expBusy = s.expBusy := rfl
@[simp] theorem emit_fault (e : Event) (s : State) : (emit e s).fault = s.fault := rfl
@[simp] theorem emit_halted (e : Event) (s : State) : (emit e s).halted = s.halted := rfl
@[simp] theorem emit_pb (e : Event) (s : State) : (emit e s).pb = s.pb := rfl
@[simp] theorem emit_sw (e : Event) (s : State) : (emit e s).sw = s.sw := rfl
@[simp] theorem emit_devOpen (e : Event) (s : State) : (emit e s).devOpen = s.devOpen := rfl
@[simp] theorem emit_tick (e : Event) (s : State) : (emit e s).tick = s.tick := rfl
@[simp] theorem emit_appWait (e : Event) (s : State) : (emit e s).appWait = s.appWait := rfl
@[simp] theorem emit_handlerWait (e : Event) (s : State) : (emit e s).handlerWait = s.handlerWait := rfl
@[simp] theorem emit_initDone (e : Event) (s : State) : (emit e s).initDone = s.initDone := rfl
@[simp] theorem emit_issuer (e : Event) (s : State) : (emit e s).issuer = s.issuer := rfl
@[simp] theorem emit_trace (e : Event) (s : State) : (emit e s).trace = s.trace ++ [e] := rfl
@[simp] theorem emit_raises (e : Event) (s : State) : (emit e s).raises = s.raises := rfl
@[simp] theorem emit_weave (e : Event) (s : State) : (emit e s).weave = s.weave := rfl
@[simp] theorem emit_agenda (e : Event) (s : State) : (emit e s).agenda = s.agenda := rfl

@[simp] theorem emitOwn_cfg (e : Event) (s : State) : (emitOwn e s).cfg = s.cfg := rfl
@[simp] theorem emitOwn_addr (e : Event) (s : State) : (emitOwn e s).addr = s.addr := rfl
@[simp] theorem emitOwn_row (e : Event) (s : State) : (emitOwn e s).row = s.row := rfl
@[simp] theorem emitOwn_em (e : Event) (s : State) : (emitOwn e s).em = s.em := rfl
@[simp] theorem emitOwn_fs (e : Event) (s : State) : (emitOwn e s).fs = s.fs := rfl
@[simp] theorem emitOwn_dc (e : Event) (s : State) : (emitOwn e s).dc = s.dc := rfl
@[simp] theorem emitOwn_last (e : Event) (s : State) : (emitOwn e s).last = s.last := rfl
@[simp] theorem emitOwn_interval (e : Event) (s : State) : (emitOwn e s).interval = s.interval := rfl
@[simp] theorem emitOwn_running (e : Event) (s : State) : (emitOwn e s).running = s.running := rfl
@[simp] theorem emitOwn_map (e : Event) (s : State) : (emitOwn e s).map = s.map := rfl
@[simp] theorem emitOwn_displayOn (e : Event) (s : State) : (emitOwn e s).displayOn = s.displayOn := rfl
@[simp] theorem emitOwn_backlightOn (e : Event) (s : State) : (emitOwn e s).backlightOn = s.backlightOn := rfl
@[simp] theorem emitOwn_timeoutActive (e : Event) (s : State) : (emitOwn e s).timeoutActive = s.timeoutActive := rfl
@[simp] theorem emitOwn_timeout (e : Event) (s : State) : (emitOwn e s).timeout = s.timeout := rfl
@[simp] theorem emitOwn_seq (e : Event) (s : State) : (emitOwn e s).seq = s.seq.advance := rfl
@[simp] theorem emitOwn_lock (e : Event) (s : State) : (emitOwn e s).lock = s.lock := rfl
@[simp] theorem emitOwn_tickBusy (e : Event) (s : State) : (emitOwn e s).tickBusy = s.tickBusy := rfl
@[simp] theorem emitOwn_expBusy (e : Event) (s : State) : (emitOwn e s).expBusy = s.expBusy := rfl
@[simp] theorem emitOwn_fault (e : Event) (s : State) : (emitOwn e s).fault = s.fault := rfl
@[simp] theorem emitOwn_halted (e : Event) (s : State) : (emitOwn e s).halted = s.halted := rfl
@[simp] theorem emitOwn_pb (e : Event) (s : State) : (emitOwn e s).pb = s.pb := rfl
@[simp] theorem emitOwn_sw (e : Event) (s : State) : (emitOwn e s).sw = s.sw := rfl
@[simp] theorem emitOwn_devOpen (e : Event) (s : State) : (emitOwn e s).devOpen = s.devOpen := rfl
@[simp] theorem emitOwn_tick (e : Event) (s : State) : (emitOwn e s).tick = s.tick := rfl
@[simp] theorem emitOwn_appWait (e : Event) (s : State) : (emitOwn e s).appWait = s.appWait := rfl
@[simp] theorem emitOwn_handlerWait (e : Event) (s : State) : (emitOwn e s).handlerWait = s.handlerWait := rfl
@[simp] theorem emitOwn_initDone (e : Event) (s : State) : (emitOwn e s).initDone = s.initDone := rfl
@[simp] theorem emitOwn_issuer (e : Event) (s : State) : (emitOwn e s).issuer = s.issuer := rfl
@[simp] theorem emitOwn_trace (e : Event) (s : State) : (emitOwn e s).trace = s.trace ++ [e] := rfl
@[simp] theorem emitOwn_raises (e : Event) (s : State) : (emitOwn e s).raises = s.raises := rfl
@[simp] theorem emitOwn_weave (e : Event) (s : State) : (emitOwn e s).weave = s.weave := rfl
@[simp] theorem emitOwn_agenda (e : Event) (s : State) : (emitOwn e s).agenda = s.agenda := rfl

@[simp] theorem popSlot_cfg (s : State) : (popSlot s).cfg = s.cfg := rfl
@[simp] theorem popSlot_addr (s : State) : (popSlot s).addr = s.addr := rfl
@[simp] theorem popSlot_row (s : State) : (popSlot s).row = s.row := rfl
@[simp] theorem popSlot_em (s : State) : (popSlot s).em = s.em := rfl
@[simp] theorem popSlot_fs (s : State) : (popSlot s).fs = s.fs := rfl
@[simp] theorem popSlot_dc (s : State) : (popSlot s).dc = s.dc := rfl
@[simp] theorem popSlot_last (s : State) : (popSlot s).last = s.last := rfl
@[simp] theorem popSlot_interval (s : State) : (popSlot s).interval = s.interval := rfl
@[simp] theorem popSlot_running (s : State) : (popSlot s).running = s.running := rfl
@[simp] theorem popSlot_map (s : State) : (popSlot s).map = s.map := rfl
@[simp] theorem popSlot_displayOn (s : State) : (popSlot s).displayOn = s.displayOn := rfl
@[simp] theorem popSlot_backlightOn (s : State) : (popSlot s).backlightOn = s.backlightOn := rfl
@[simp] theorem popSlot_timeoutActive (s : State) : (popSlot s).timeoutActive = s.timeoutActive := rfl
@[simp] theorem popSlot_timeout (s : State) : (popSlot s).timeout = s.timeout := rfl
@[simp] theorem popSlot_seq (s : State) : (popSlot s).seq = s.seq := rfl
@[simp] theorem popSlot_lock (s : State) : (popSlot s).lock = s.lock := rfl
@[simp] theorem popSlot_tickBusy (s : State) : (popSlot s).tickBusy = s.tickBusy := rfl
@[simp] theorem popSlot_expBusy (s : State) : (popSlot s).expBusy = s.expBusy := rfl
@[simp] theorem popSlot_fault (s : State) : (popSlot s).fault = s.fault := rfl
@[simp] theorem popSlot_halted (s : State) : (popSlot s).halted = s.halted := rfl
@[simp] theorem popSlot_pb (s : State) : (popSlot s).pb = s.pb := rfl
@[simp] theorem popSlot_sw (s : State) : (popSlot s).sw = s.sw := rfl
@[simp] theorem popSlot_devOpen (s : State) : (popSlot s).devOpen = s.devOpen := rfl
@[simp] theorem popSlot_tick (s : State) : (popSlot s).tick = s.tick := rfl
@[simp] theorem popSlot_appWait (s : State) : (popSlot s).appWait = s.appWait := rfl
@[simp] theorem popSlot_handlerWait (s : State) : (popSlot s).handlerWait = s.handlerWait := rfl
@[simp] theorem popSlot_initDone (s : State) : (popSlot s).initDone = s.initDone := rfl
@[simp] theorem popSlot_issuer (s : State) : (popSlot s).issuer = s.issuer := rfl
@[simp] theorem popSlot_trace (s : State) : (popSlot s).trace = s.trace := rfl
@[simp] theorem popSlot_raises (s : State) : (popSlot s).raises = s.raises := rfl
@[simp] theorem popSlot_weave (s : State) : (popSlot s).weave = s.weave.tail := rfl
@[simp] theorem popSlot_agenda (s : State) : (popSlot s).agenda = s.agenda := rfl

@[simp] theorem respond_cfg (c : Ctx) (r : Response) (s : State) : (respond c r s).cfg = s.cfg := rfl
@[simp] theorem respond_addr (c : Ctx) (r : Response) (s : State) : (respond c r s).addr = s.addr := rfl
@[simp] theorem respond_row (c : Ctx) (r : Response) (s : State) : (respond c r s).row = s.row := rfl
@[simp] theorem respond_em (c : Ctx) (r : Response) (s : State) : (respond c r s).em = s.em := rfl
@[simp] theorem respond_fs (c : Ctx) (r : Response) (s : State) : (respond c r s).fs = s.fs := rfl
@[simp] theorem respond_dc (c : Ctx) (r : Response) (s : State) : (respond c r s).dc = s.dc := rfl
@[simp] theorem respond_last (c : Ctx) (r : Response) (s : State) : (respond c r s).last = s.last := rfl
@[simp] theorem respond_interval (c : Ctx) (r : Response) (s : State) : (respond c r s).interval = s.interval := rfl
@[simp] theorem respond_running (c : Ctx) (r : Response) (s : State) : (respond c r s).running = s.running := rfl
@[simp] theorem respond_map (c : Ctx) (r : Response) (s : State) : (respond c r s).map = s.map := rfl
@[simp] theorem respond_displayOn (c : Ctx) (r : Response) (s : State) : (respond c r s).displayOn = s.displayOn := rfl
@[simp] theorem respond_backlightOn (c : Ctx) (r : Response) (s : State) : (respond c r s).backlightOn = s.backlightOn := rfl
@[simp] theorem respond_timeoutActive (c : Ctx) (r : Response) (s : State) : (respond c r s).timeoutActive = s.timeoutActive := rfl
@[simp] theorem respond_timeout (c : Ctx) (r : Response) (s : State) : (respond c r s).timeout = s.timeout := rfl
@[simp] theorem respond_seq (c : Ctx) (r : Response) (s : State) : (respond c r s).seq = s.seq := rfl
@[simp] theorem respond_lock (c : Ctx) (r : Response) (s : State) : (respond c r s).lock = s.lock := rfl
@[simp] theorem respond_tickBusy (c : Ctx) (r : Response) (s : State) : (respond c r s).tickBusy = s.tickBusy := rfl
@[simp] theorem respond_expBusy (c : Ctx) (r : Response) (s : State) : (respond c r s).expBusy = s.expBusy := rfl
@[simp] theorem respond_fault (c : Ctx) (r : Response) (s : State) : (respond c r s).fault = s.fault := rfl
@[simp] theorem respond_halted (c : Ctx) (r : Response) (s : State) : (respond c r s).halted = s.halted := rfl
@[simp] theorem respond_pb (c : Ctx) (r : Response) (s : State) : (respond c r s).pb = s.pb := rfl
@[simp] theorem respond_sw (c : Ctx) (r : Response) (s : State) : (respond c r s).sw = s.sw := rfl
@[simp] theorem respond_devOpen (c : Ctx) (r : Response) (s : State) : (respond c r s).devOpen = s.devOpen := rfl
@[simp] theorem respond_tick (c : Ctx) (r : Response) (s : State) : (respond c r s).tick = s.tick := rfl
@[simp] theorem respond_appWait (c : Ctx) (r : Response) (s : State) : (respond c r s).appWait = s.appWait := rfl
@[simp] theorem respond_handlerWait (c : Ctx) (r : Response) (s : State) : (respond c r s).handlerWait = s.handlerWait := rfl
@[simp] theorem respond_initDone (c : Ctx) (r : Response) (s : State) : (respond c r s).initDone = s.initDone := rfl
@[simp] theorem respond_issuer (c : Ctx) (r : Response) (s : State) : (respond c r s).issuer = s.issuer := rfl
@[simp] theorem respond_trace (c : Ctx) (r : Response) (s : State) : (respond c r s).trace = s.trace ++ [.resp c r] := rfl
@[simp] theorem respond_raises (c : Ctx) (r : Response) (s : State) : (respond c r s).raises = s.raises := rfl
@[simp] theorem respond_weave (c : Ctx) (r : Response) (s : State) : (respond c r s).weave = s.weave := rfl
@[simp] theorem respond_agenda (c : Ctx) (r : Response) (s : State) : (respond c r s).agenda = s.agenda := rfl

@[simp] theorem refuse_cfg (c : Ctx) (r : Reason) (s : State) : (refuse c r s).cfg = s.cfg := rfl
@[simp] theorem refuse_addr (c : Ctx) (r : Reason) (s : State) : (refuse c r s).addr = s.addr := rfl
@[simp] theorem refuse_row (c : Ctx) (r : Reason) (s : State) : (refuse c r s).row = s.row := rfl
@[simp] theorem refuse_em (c : Ctx) (r : Reason) (s : State) : (refuse c r s).em = s.em := rfl
@[simp] theorem refuse_fs (c : Ctx) (r : Reason) (s : State) : (refuse c r s).fs = s.fs := rfl
@[simp] theorem refuse_dc (c : Ctx) (r : Reason) (s : State) : (refuse c r s).dc = s.dc := rfl
@[simp] theorem refuse_last (c : Ctx) (r : Reason) (s : State) : (refuse c r s).last = s.last := rfl
@[simp] theorem refuse_interval (c : Ctx) (r : Reason) (s : State) : (refuse c r s).interval = s.interval := rfl
@[simp] theorem refuse_running (c : Ctx) (r : Reason) (s : State) : (refuse c r s).running = s.running := rfl
@[simp] theorem refuse_map (c : Ctx) (r : Reason) (s : State) : (refuse c r s).map = s.map := rfl
@[simp] theorem refuse_displayOn (c : Ctx) (r : Reason) (s : State) : (refuse c r s).displayOn = s.displayOn := rfl
@[simp] theorem refuse_backlightOn (c : Ctx) (r : Reason) (s : State) : (refuse c r s).backlightOn = s.backlightOn := rfl
@[simp] theorem refuse_timeoutActive (c : Ctx) (r : Reason) (s : State) : (refuse c r s).timeoutActive = s.timeoutActive := rfl
@[simp] theorem refuse_timeout (c : Ctx) (r : Reason) (s : State) : (refuse c r s).timeout = s.timeout := rfl
@[simp] theorem refuse_seq (c : Ctx) (r : Reason) (s : State) : (refuse c r s).seq = s.seq := rfl
@[simp] theorem refuse_lock (c : Ctx) (r : Reason) (s : State) : (refuse c r s).lock = s.lock := rfl
@[simp] theorem refuse_tickBusy (c : Ctx) (r : Reason) (s : State) : (refuse c r s).tickBusy = s.tickBusy := rfl
@[simp] theorem refuse_expBusy (c : Ctx) (r : Reason) (s : State) : (refuse c r s).expBusy = s.expBusy := rfl
@[simp] theorem refuse_fault (c : Ctx) (r : Reason) (s : State) : (refuse c r s).fault = s.fault := rfl
@[simp] theorem refuse_halted (c : Ctx) (r : Reason) (s : State) : (refuse c r s).halted = s.halted := rfl
@[simp] theorem refuse_pb (c : Ctx) (r : Reason) (s : State) : (refuse c r s).pb = s.pb := rfl
@[simp] theorem refuse_sw (c : Ctx) (r : Reason) (s : State) : (refuse c r s).sw = s.sw := rfl
@[simp] theorem refuse_devOpen (c : Ctx) (r : Reason) (s : State) : (refuse c r s).devOpen = s.devOpen := rfl
@[simp] theorem refuse_tick (c : Ctx) (r : Reason) (s : State) : (refuse c r s).tick = s.tick := rfl
@[simp] theorem refuse_appWait (c : Ctx) (r : Reason) (s : State) : (refuse c r s).appWait = s.appWait := rfl
@[simp] theorem refuse_handlerWait (c : Ctx) (r : Reason) (s : State) : (refuse c r s).handlerWait = s.handlerWait := rfl
@[simp] theorem refuse_initDone (c : Ctx) (r : Reason) (s : State) : (refuse c r s).initDone = s.initDone := rfl
@[simp] theorem refuse_issuer (c : Ctx) (r : Reason) (s : State) : (refuse c r s).issuer = s.issuer := rfl
@[simp] theorem refuse_trace (c : Ctx) (r : Reason) (s : State) : (refuse c r s).trace = s.trace ++ [.resp c (.refused r)] := rfl
@[simp] theorem refuse_raises (c : Ctx) (r : Reason) (s : State) : (refuse c r s).raises = s.raises := rfl
@[simp] theorem refuse_weave (c : Ctx) (r : Reason) (s : State) : (refuse c r s).weave = s.weave := rfl
@[simp] theorem refuse_agenda (c : Ctx) (r : Reason) (s : State) : (refuse c r s).agenda = s.agenda := rfl

@[simp] theorem finishOp_cfg (v : Byte) (s : State) : (finishOp v s).cfg = s.cfg := rfl
@[simp] theorem finishOp_addr (v : Byte) (s : State) : (finishOp v s).addr = s.addr := rfl
@[simp] theorem finishOp_row (v : Byte) (s : State) : (finishOp v s).row = s.row := rfl
@[simp] theorem finishOp_em (v : Byte) (s : State) : (finishOp v s).em = s.em := rfl
@[simp] theorem finishOp_fs (v : Byte) (s : State) : (finishOp v s).fs = s.fs := rfl
@[simp] theorem finishOp_dc (v : Byte) (s : State) : (finishOp v s).dc = s.dc := rfl
@[simp] theorem finishOp_last (v : Byte) (s : State) : (finishOp v s).last = s.last := rfl
@[simp] theorem finishOp_interval (v : Byte) (s : State) : (finishOp v s).interval = s.interval := rfl
@[simp] theorem finishOp_running (v : Byte) (s : State) : (finishOp v s).running = s.running := rfl
@[simp] theorem finishOp_map (v : Byte) (s : State) : (finishOp v s).map = s.map := rfl
@[simp] theorem finishOp_displayOn (v : Byte) (s : State) : (finishOp v s).displayOn = s.displayOn := rfl
@[simp] theorem finishOp_backlightOn (v : Byte) (s : State) : (finishOp v s).backlightOn = s.backlightOn := rfl
@[simp] theorem finishOp_timeoutActive (v : Byte) (s : State) : (finishOp v s).timeoutActive = s.timeoutActive := rfl
@[simp] theorem finishOp_timeout (v : Byte) (s : State) : (finishOp v s).timeout = s.timeout := rfl
@[simp] theorem finishOp_seq (v : Byte) (s : State) : (finishOp v s).seq = .idle := rfl
@[simp] theorem finishOp_lock (v : Byte) (s : State) : (finishOp v s).lock = s.lock := rfl
@[simp] theorem finishOp_tickBusy (v : Byte) (s : State) : (finishOp v s).tickBusy = s.tickBusy := rfl
@[simp] theorem finishOp_expBusy (v : Byte) (s : State) : (finishOp v s).expBusy = s.expBusy := rfl
@[simp] theorem finishOp_fault (v : Byte) (s : State) : (finishOp v s).fault = s.fault := rfl
@[simp] theorem finishOp_halted (v : Byte) (s : State) : (finishOp v s).halted = s.halted := rfl
@[simp] theorem finishOp_pb (v : Byte) (s : State) : (finishOp v s).pb = s.pb := rfl
@[simp] theorem finishOp_sw (v : Byte) (s : State) : (finishOp v s).sw = s.sw := rfl
@[simp] theorem finishOp_devOpen (v : Byte) (s : State) : (finishOp v s).devOpen = s.devOpen := rfl
@[simp] theorem finishOp_tick (v : Byte) (s : State) : (finishOp v s).tick = s.tick := rfl
@[simp] theorem finishOp_appWait (v : Byte) (s : State) : (finishOp v s).appWait = s.appWait := rfl
@[simp] theorem finishOp_handlerWait (v : Byte) (s : State) : (finishOp v s).handlerWait = s.handlerWait := rfl
@[simp] theorem finishOp_initDone (v : Byte) (s : State) : (finishOp v s).initDone = s.initDone := rfl
@[simp] theorem finishOp_issuer (v : Byte) (s : State) : (finishOp v s).issuer = s.issuer := rfl
@[simp] theorem finishOp_trace (v : Byte) (s : State) : (finishOp v s).trace = s.trace ++ [.resp s.issuer (.ok v)] := rfl
@[simp] theorem finishOp_raises (v : Byte) (s : State) : (finishOp v s).raises = s.raises := rfl
@[simp] theorem finishOp_weave (v : Byte) (s : State) : (finishOp v s).weave = s.weave := rfl
@[simp] theorem finishOp_agenda (v : Byte) (s : State) : (finishOp v s).agenda = s.agenda := rfl

@[simp] theorem recordFault_cfg (r : Raised) (s : State) : (recordFault r s).cfg = s.cfg := rfl
@[simp] theorem recordFault_addr (r : Raised) (s : State) : (recordFault r s).addr = s.addr := rfl
@[simp] theorem recordFault_row (r : Raised) (s : State) : (recordFault r s).row = s.row := rfl
@[simp] theorem recordFault_em (r : Raised) (s : State) : (recordFault r s).em = s.em := rfl
@[simp] theorem recordFault_fs (r : Raised) (s : State) : (recordFault r s).fs = s.fs := rfl
@[simp] theorem recordFault_dc (r : Raised) (s : State) : (recordFault r s).dc = s.dc := rfl
@[simp] theorem recordFault_last (r : Raised) (s : State) : (recordFault r s).last = s.last := rfl
@[simp] theorem recordFault_interval (r : Raised) (s : State) : (recordFault r s).interval = s.interval := rfl
@[simp] theorem recordFault_running (r : Raised) (s : State) : (recordFault r s).running = s.running := rfl
@[simp] theorem recordFault_map (r : Raised) (s : State) : (recordFault r s).map = s.map := rfl
@[simp] theorem recordFault_displayOn (r : Raised) (s : State) : (recordFault r s).displayOn = s.displayOn := rfl
@[simp] theorem recordFault_backlightOn (r : Raised) (s : State) : (recordFault r s).backlightOn = s.backlightOn := rfl
@[simp] theorem recordFault_timeoutActive (r : Raised) (s : State) : (recordFault r s).timeoutActive = s.timeoutActive := rfl
@[simp] theorem recordFault_timeout (r : Raised) (s : State) : (recordFault r s).timeout = s.timeout := rfl
@[simp] theorem recordFault_seq (r : Raised) (s : State) : (recordFault r s).seq = s.seq := rfl
@[simp] theorem recordFault_lock (r : Raised) (s : State) : (recordFault r s).lock = s.lock := rfl
@[simp] theorem recordFault_tickBusy (r : Raised) (s : State) : (recordFault r s).tickBusy = s.tickBusy := rfl
@[simp] theorem recordFault_expBusy (r : Raised) (s : State) : (recordFault r s).expBusy = s.expBusy := rfl
@[simp] theorem recordFault_fault (r : Raised) (s : State) : (recordFault r s).fault = s.fault.or (some (raisedCode r)) := rfl
@[simp] theorem recordFault_halted (r : Raised) (s : State) : (recordFault r s).halted = s.halted := rfl
@[simp] theorem recordFault_pb (r : Raised) (s : State) : (recordFault r s).pb = s.pb := rfl
@[simp] theorem recordFault_sw (r : Raised) (s : State) : (recordFault r s).sw = s.sw := rfl
@[simp] theorem recordFault_devOpen (r : Raised) (s : State) : (recordFault r s).devOpen = s.devOpen := rfl
@[simp] theorem recordFault_tick (r : Raised) (s : State) : (recordFault r s).tick = s.tick := rfl
@[simp] theorem recordFault_appWait (r : Raised) (s : State) : (recordFault r s).appWait = s.appWait := rfl
@[simp] theorem recordFault_handlerWait (r : Raised) (s : State) : (recordFault r s).handlerWait = s.handlerWait := rfl
@[simp] theorem recordFault_initDone (r : Raised) (s : State) : (recordFault r s).initDone = s.initDone := rfl
@[simp] theorem recordFault_issuer (r : Raised) (s : State) : (recordFault r s).issuer = s.issuer := rfl
@[simp] theorem recordFault_trace (r : Raised) (s : State) : (recordFault r s).trace = s.trace := rfl
@[simp] theorem recordFault_raises (r : Raised) (s : State) : (recordFault r s).raises = s.raises ++ [r] := rfl
@[simp] theorem recordFault_weave (r : Raised) (s : State) : (recordFault r s).weave = s.weave := rfl
@[simp] theorem recordFault_agenda (r : Raised) (s : State) : (recordFault r s).agenda = s.agenda := rfl

@[simp] theorem beginTurn_cfg (t : Turn) (rest : List Turn) (s : State) : (beginTurn t rest s).cfg = s.cfg := rfl
@[simp] theorem beginTurn_addr (t : Turn) (rest : List Turn) (s : State) : (beginTurn t rest s).addr = s.addr := rfl
@[simp] theorem beginTurn_row (t : Turn) (rest : List Turn) (s : State) : (beginTurn t rest s).row = s.row := rfl
@[simp] theorem beginTurn_em (t : Turn) (rest : List Turn) (s : State) : (beginTurn t rest s).em = s.em := rfl
@[simp] theorem beginTurn_fs (t : Turn) (rest : List Turn) (s : State) : (beginTurn t rest s).fs = s.fs := rfl
@[simp] theorem beginTurn_dc (t : Turn) (rest : List Turn) (s : State) : (beginTurn t rest s).dc = s.dc := rfl
@[simp] theorem beginTurn_last (t : Turn) (rest : List Turn) (s : State) : (beginTurn t rest s).last = s.last := rfl
@[simp] theorem beginTurn_interval (t : Turn) (rest : List Turn) (s : State) : (beginTurn t rest s).interval = s.interval := rfl
@[simp] theorem beginTurn_running (t : Turn) (rest : List Turn) (s : State) : (beginTurn t rest s).running = s.running := rfl
@[simp] theorem beginTurn_map (t : Turn) (rest : List Turn) (s : State) : (beginTurn t rest s).map = s.map := rfl
@[simp] theorem beginTurn_displayOn (t : Turn) (rest : List Turn) (s : State) : (beginTurn t rest s).displayOn = s.displayOn := rfl
@[simp] theorem beginTurn_backlightOn (t : Turn) (rest : List Turn) (s : State) : (beginTurn t rest s).backlightOn = s.backlightOn := rfl
@[simp] theorem beginTurn_timeoutActive (t : Turn) (rest : List Turn) (s : State) : (beginTurn t rest s).timeoutActive = s.timeoutActive := rfl
@[simp] theorem beginTurn_timeout (t : Turn) (rest : List Turn) (s : State) : (beginTurn t rest s).timeout = s.timeout := rfl
@[simp] theorem beginTurn_seq (t : Turn) (rest : List Turn) (s : State) : (beginTurn t rest s).seq = s.seq := rfl
@[simp] theorem beginTurn_lock (t : Turn) (rest : List Turn) (s : State) : (beginTurn t rest s).lock = s.lock := rfl
@[simp] theorem beginTurn_tickBusy (t : Turn) (rest : List Turn) (s : State) : (beginTurn t rest s).tickBusy = s.tickBusy := rfl
@[simp] theorem beginTurn_expBusy (t : Turn) (rest : List Turn) (s : State) : (beginTurn t rest s).expBusy = s.expBusy := rfl
@[simp] theorem beginTurn_fault (t : Turn) (rest : List Turn) (s : State) : (beginTurn t rest s).fault = s.fault := rfl
@[simp] theorem beginTurn_halted (t : Turn) (rest : List Turn) (s : State) : (beginTurn t rest s).halted = s.halted := rfl
@[simp] theorem beginTurn_pb (t : Turn) (rest : List Turn) (s : State) : (beginTurn t rest s).pb = s.pb := rfl
@[simp] theorem beginTurn_sw (t : Turn) (rest : List Turn) (s : State) : (beginTurn t rest s).sw = s.sw := rfl
@[simp] theorem beginTurn_devOpen (t : Turn) (rest : List Turn) (s : State) : (beginTurn t rest s).devOpen = s.devOpen := rfl
@[simp] theorem beginTurn_tick (t : Turn) (rest : List Turn) (s : State) : (beginTurn t rest s).tick = s.tick := rfl
@[simp] theorem beginTurn_appWait (t : Turn) (rest : List Turn) (s : State) : (beginTurn t rest s).appWait = s.appWait := rfl
@[simp] theorem beginTurn_handlerWait (t : Turn) (rest : List Turn) (s : State) : (beginTurn t rest s).handlerWait = s.handlerWait := rfl
@[simp] theorem beginTurn_initDone (t : Turn) (rest : List Turn) (s : State) : (beginTurn t rest s).initDone = s.initDone := rfl
@[simp] theorem beginTurn_issuer (t : Turn) (rest : List Turn) (s : State) : (beginTurn t rest s).issuer = s.issuer := rfl
@[simp] theorem beginTurn_trace (t : Turn) (rest : List Turn) (s : State) : (beginTurn t rest s).trace = s.trace := rfl
@[simp] theorem beginTurn_raises (t : Turn) (rest : List Turn) (s : State) : (beginTurn t rest s).raises = s.raises := rfl
@[simp] theorem beginTurn_weave (t : Turn) (rest : List Turn) (s : State) : (beginTurn t rest s).weave = t.weave := rfl
@[simp] theorem beginTurn_agenda (t : Turn) (rest : List Turn) (s : State) : (beginTurn t rest s).agenda = rest := rfl

@[simp] theorem markInit_cfg (s : State) : (markInit s).cfg = s.cfg := rfl
@[simp] theorem markInit_addr (s : State) : (markInit s).addr = s.addr := rfl
@[simp] theorem markInit_row (s : State) : (markInit s).row = s.row := rfl
@[simp] theorem markInit_em (s : State) : (markInit s).em = s.em := rfl
@[simp] theorem markInit_fs (s : State) : (markInit s).fs = s.fs := rfl
@[simp] theorem markInit_dc (s : State) : (markInit s).dc = s.dc := rfl
@[simp] theorem markInit_last (s : State) : (markInit s).last = s.last := rfl
@[simp] theorem markInit_interval (s : State) : (markInit s).interval = s.interval := rfl
@[simp] theorem markInit_running (s : State) : (markInit s).running = s.running := rfl
@[simp] theorem markInit_map (s : State) : (markInit s).map = s.map := rfl
@[simp] theorem markInit_displayOn (s : State) : (markInit s).displayOn = s.displayOn := rfl
@[simp] theorem markInit_backlightOn (s : State) : (markInit s).backlightOn = s.backlightOn := rfl
@[simp] theorem markInit_timeoutActive (s : State) : (markInit s).timeoutActive = s.timeoutActive := rfl
@[simp] theorem markInit_timeout (s : State) : (markInit s).timeout = s.timeout := rfl
@[simp] theorem markInit_seq (s : State) : (markInit s).seq = s.seq := rfl
@[simp] theorem markInit_lock (s : State) : (markInit s).lock = s.lock := rfl
@[simp] theorem markInit_tickBusy (s : State) : (markInit s).tickBusy = s.tickBusy := rfl
@[simp] theorem markInit_expBusy (s : State) : (markInit s).expBusy = s.expBusy := rfl
@[simp] theorem markInit_fault (s : State) : (markInit s).fault = s.fault := rfl
@[simp] theorem markInit_halted (s : State) : (markInit s).halted = s.halted := rfl
@[simp] theorem markInit_pb (s : State) : (markInit s).pb = s.pb := rfl
@[simp] theorem markInit_sw (s : State) : (markInit s).sw = s.sw := rfl
@[simp] theorem markInit_devOpen (s : State) : (markInit s).devOpen = s.devOpen := rfl
@[simp] theorem markInit_tick (s : State) : (markInit s).tick = s.tick := rfl
@[simp] theorem markInit_appWait (s : State) : (markInit s).appWait = s.appWait := rfl
@[simp] theorem markInit_handlerWait (s : State) : (markInit s).handlerWait = s.handlerWait := rfl
@[simp] theorem markInit_initDone (s : State) : (markInit s).initDone = true := rfl
@[simp] theorem markInit_issuer (s : State) : (markInit s).issuer = s.issuer := rfl
@[simp] theorem markInit_trace (s : State) : (markInit s).trace = s.trace := rfl
@[simp] theorem markInit_raises (s : State) : (markInit s).raises = s.raises := rfl
@[simp] theorem markInit_weave (s : State) : (markInit s).weave = s.weave := rfl
@[simp] theorem markInit_agenda (s : State) : (markInit s).agenda = s.agenda := rfl

end Sys2Proof.Machine
end

