-- ==== Sys2Proof/Laws/Ops.lean ====
section
/-!
SUPPORT. Fault entry and the ends of an activity: what each can do, said once.
-/

namespace Sys2Proof.Machine

/-! ### Outcomes -/

theorem conclude_next {r : Except Stop State} {t : State} :
    conclude r = .next t ↔ r = .ok t ∨ r = .error (.ended t) := by
  rcases r with (_ | _) | _ <;> simp [conclude, eq_comm]

theorem bind_ok {s : State} (f : State → Except Stop State) : (Except.ok s >>= f : Except Stop State) = f s := rfl

theorem bind_error {e : Stop} (f : State → Except Stop State) :
    (Except.error e >>= f : Except Stop State) = .error e := rfl

/-- If a sequence ends well, its first part did, and the rest did from there. -/
theorem bind_eq_ok {r : Except Stop State} {f : State → Except Stop State} {t : State} :
    (r >>= f) = .ok t ↔ ∃ s, r = .ok s ∧ f s = .ok t := by
  cases r with
  | error e => simp [bind_error]
  | ok s => simp [bind_ok]

/-- If a sequence stops, its first part did, or the rest did from where that ended. -/
theorem bind_eq_error {r : Except Stop State} {f : State → Except Stop State} {e : Stop} :
    (r >>= f) = .error e ↔ r = .error e ∨ ∃ s, r = .ok s ∧ f s = .error e := by
  cases r with
  | error e' => simp [bind_error]
  | ok s => simp [bind_ok]

/-! ### Fault entry (R271) -/

/-- A host operation's fault other than `ConcurrentLcd`: recorded, the sequencer released, answered. -/
theorem raiseFault_host_io (c : Ctx) (op : OpName) (n : Nat) (s : State) :
    raiseFault (.host c) (.ioFault op n) s =
      respond c (.fault .ioFault) { recordFault (.ioFault op n) s with seq := .idle } := rfl

theorem raiseFault_host_notOpen (c : Ctx) (op : OpName) (n : Nat) (s : State) :
    raiseFault (.host c) (.deviceNotOpen op n) s =
      respond c (.fault .deviceNotOpen) { recordFault (.deviceNotOpen op n) s with seq := .idle } := rfl

/-- `ConcurrentLcd` of a host operation: recorded and answered, the sequencer left to its owner. -/
theorem raiseFault_host_concurrent (c : Ctx) (op inFlight : OpName) (s : State) :
    raiseFault (.host c) (.concurrentLcd op inFlight) s =
      respond c (.fault .concurrentLcd) (recordFault (.concurrentLcd op inFlight) s) := rfl

theorem raiseFault_expire_concurrent (op inFlight : OpName) (s : State) :
    raiseFault .expire (.concurrentLcd op inFlight) s =
      { recordFault (.concurrentLcd op inFlight) s with expBusy := false } := rfl

/-- R263: a handler's failure is recorded and halts the block; `TICKBUSY` stays as it is. -/
theorem raiseFault_tick_handler (h : Byte) (s : State) :
    raiseFault .tick (.handlerFault h) s =
      { recordFault (.handlerFault h) s with tick := .idle, halted := true } := rfl

/-- R271 step 2: whatever is raised, the first fault stays. -/
theorem raiseFault_fault (who : Raiser) (r : Raised) (s : State) :
    (raiseFault who r s).fault = s.fault.or (some (raisedCode r)) := by
  cases who <;> cases r <;> rfl

theorem raiseFault_ne_none (who : Raiser) (r : Raised) (s : State) : (raiseFault who r s).fault ≠ none := by
  rw [raiseFault_fault]
  cases s.fault <;> simp

/-- A raise writes no register of the LCD side, none of the poller's but the tick's, and no flag of the session. -/
theorem raiseFault_frame (who : Raiser) (r : Raised) (s : State) :
    raiseFault who r s =
      { s with
        seq := (raiseFault who r s).seq
        tickBusy := (raiseFault who r s).tickBusy
        expBusy := (raiseFault who r s).expBusy
        fault := (raiseFault who r s).fault
        halted := (raiseFault who r s).halted
        tick := (raiseFault who r s).tick
        trace := (raiseFault who r s).trace
        raises := (raiseFault who r s).raises } := by
  cases who <;> cases r <;> rfl

/-! ### Starting an activity (R265) -/

theorem startLcd_ok {who : Raiser} {a : Agent} {op : OpName} {s t : State} :
    startLcd who a op s = .ok t ↔ s.seq = .idle ∧ t = { s with seq := .busy a op 0 } := by
  unfold startLcd
  split
  · next h => simp [h, eq_comm]
  · next h => simp [h]

theorem startLcd_idle {who : Raiser} {a : Agent} {op : OpName} {s : State} (h : s.seq = .idle) :
    startLcd who a op s = .ok { s with seq := .busy a op 0 } := startLcd_ok.mpr ⟨h, rfl⟩

theorem startLcd_busy {who : Raiser} {a b : Agent} {op op' : OpName} {n : Nat} {s : State} (h : s.seq = .busy b op' n) :
    startLcd who a op s = .error (.ended (raiseFault who (.concurrentLcd op op') s)) := by
  simp [startLcd, h]

theorem accept_live {s : State} (h : s.halted = false) : accept s = .ok s := by simp [accept, h]

theorem accept_halted {s : State} (h : s.halted = true) : accept s = .error (.ended (refuse s.issuer .halted s)) := by
  simp [accept, h]

end Sys2Proof.Machine
end

