-- ==== Sys2Proof/Laws/Acts.lean ====
section
/-!
SUPPORT. One atomic step of another agent or of the environment: what it can do, said once (R34, R265, R307).
-/

namespace Sys2Proof.Machine

/-- `t` is `s` but for what the agents that do not own the sequencer may write: the poller's registers, the timer's
pending flag, the locks, the fault record, the environment's switches and device, and the model's bookkeeping.
The LCD registers, the session's power flags, `PB` and `SEQ` are as they were. -/
def Bystander (s t : State) : Prop :=
  t = { s with
    last := t.last
    interval := t.interval
    running := t.running
    map := t.map
    timeoutActive := t.timeoutActive
    lock := t.lock
    tickBusy := t.tickBusy
    expBusy := t.expBusy
    fault := t.fault
    halted := t.halted
    sw := t.sw
    devOpen := t.devOpen
    tick := t.tick
    appWait := t.appWait
    handlerWait := t.handlerWait
    trace := t.trace
    raises := t.raises }

theorem Bystander.refl (s : State) : Bystander s s := rfl

theorem Bystander.trans {s t u : State} (h : Bystander s t) (k : Bystander t u) : Bystander s u := by
  unfold Bystander at *
  rw [k, h]

theorem Bystander.pb {s t : State} (h : Bystander s t) : t.pb = s.pb := by rw [h]
theorem Bystander.addr {s t : State} (h : Bystander s t) : t.addr = s.addr := by rw [h]
theorem Bystander.row {s t : State} (h : Bystander s t) : t.row = s.row := by rw [h]
theorem Bystander.em {s t : State} (h : Bystander s t) : t.em = s.em := by rw [h]
theorem Bystander.fs {s t : State} (h : Bystander s t) : t.fs = s.fs := by rw [h]
theorem Bystander.dc {s t : State} (h : Bystander s t) : t.dc = s.dc := by rw [h]
theorem Bystander.displayOn {s t : State} (h : Bystander s t) : t.displayOn = s.displayOn := by rw [h]
theorem Bystander.backlightOn {s t : State} (h : Bystander s t) : t.backlightOn = s.backlightOn := by rw [h]
theorem Bystander.timeout {s t : State} (h : Bystander s t) : t.timeout = s.timeout := by rw [h]
theorem Bystander.seq {s t : State} (h : Bystander s t) : t.seq = s.seq := by rw [h]
theorem Bystander.cfg {s t : State} (h : Bystander s t) : t.cfg = s.cfg := by rw [h]
theorem Bystander.issuer {s t : State} (h : Bystander s t) : t.issuer = s.issuer := by rw [h]
theorem Bystander.weave {s t : State} (h : Bystander s t) : t.weave = s.weave := by rw [h]
theorem Bystander.agenda {s t : State} (h : Bystander s t) : t.agenda = s.agenda := by rw [h]

theorem registerOp_bystander (c : Ctx) (key : Option Nat) (h : Byte) (s : State) : Bystander s (registerOp c key h s) := by
  unfold registerOp; split <;> rfl

theorem setWait_bystander (c : Ctx) (w : Option Held) (s : State) : Bystander s (setWait c w s) := by
  cases c <;> rfl

theorem setintOp_bystander (c : Ctx) (ms : Word32) (s : State) : Bystander s (setintOp c ms s) := by
  unfold setintOp
  split_ifs
  · rfl
  · exact setWait_bystander _ _ _
  · rfl
  · rfl

theorem pollstartOp_bystander (c : Ctx) (s : State) : Bystander s (pollstartOp c s) := by
  unfold pollstartOp; split_ifs <;> rfl

theorem pollstopOp_bystander (c : Ctx) (s : State) : Bystander s (pollstopOp c s) := by
  unfold pollstopOp
  split_ifs
  · exact setWait_bystander _ _ _
  · rfl
  · rfl

theorem resume_bystander (c : Ctx) (s : State) : Bystander s (resume c s) := by
  unfold resume
  split
  · rfl
  · split_ifs
    · rfl
    · split <;> cases c <;> rfl

theorem raiseTick_bystander (r : Raised) (s : State) : Bystander s (raiseFault .tick r s) := by
  cases r <;> rfl

theorem tickSample_bystander (ok : Bool) (s : State) : Bystander s (tickSample ok s) := by
  unfold tickSample; split_ifs <;> rfl

theorem tickLookup_bystander (v : Byte) (s : State) : Bystander s (tickLookup v s) := by
  unfold tickLookup
  split
  · rfl
  · split
    · rfl
    · split <;> rfl

theorem tickReturn_bystander (h : Byte) (ok : Bool) (s : State) : Bystander s (tickReturn h ok s) := by
  unfold tickReturn; split_ifs <;> rfl

theorem polltStep_bystander (ok : Bool) (s : State) : Bystander s (polltStep ok s) := by
  unfold polltStep
  split
  · rfl
  · split
    · split
      · exact tickSample_bystander _ _
      · rfl
    · exact tickLookup_bystander _ _
    · rfl
    · exact tickReturn_bystander _ _ _

theorem atomicOp_bystander (c : Ctx) (i : Instr) (s : State) : Bystander s (atomicOp c i s) := by
  cases i
  case regs => exact registerOp_bystander _ _ _ _
  case regc => exact registerOp_bystander _ _ _ _
  case setint => exact setintOp_bystander _ _ _
  case pollstart => exact pollstartOp_bystander _ _
  case pollstop => exact pollstopOp_bystander _ _
  all_goals rfl

theorem overlapped_bystander (c : Ctx) (i : Instr) (s : State) : Bystander s (overlapped c i s) := by
  unfold overlapped
  split_ifs
  · rfl
  · split
    · rfl
    · rfl
    · exact atomicOp_bystander _ _ _
  · rfl

theorem expiryCollides_bystander (s : State) : Bystander s (expiryCollides s) := by
  unfold expiryCollides
  split_ifs
  · split <;> rfl
  · rfl

/-- A step of another agent that the activity in flight survives. -/
theorem act_ok_bystander {a : Act} {s t : State} (h : act a s = .ok t) : Bystander s t := by
  cases a with
  | packet c bytes =>
    simp only [act] at h
    split at h
    · cases h
    · split at h <;> cases h
      · exact overlapped_bystander _ _ _
      · rfl
  | pollt ok => cases h; exact polltStep_bystander _ _
  | hret ok =>
    simp only [act] at h
    split at h
    · split_ifs at h
      cases h
      rfl
    · cases h
  | offt => cases h; exact expiryCollides_bystander _
  | resume c => cases h; exact resume_bystander _ _
  | switches v => cases h; rfl
  | openDevice ok => cases h; rfl
  | closeDevice =>
    simp only [act] at h
    split_ifs at h
    cases h
    rfl
  | reset p => cases h

/-- Only a reset ends the activity in flight by itself. -/
theorem act_ended {a : Act} {s t : State} (h : act a s = .error (.ended t)) :
    ∃ powerOn, a = .reset powerOn ∧ t = resetBlock powerOn s := by
  cases a with
  | packet c bytes =>
    simp only [act] at h
    split at h
    · cases h
    · split at h <;> cases h
  | hret ok =>
    simp only [act] at h
    split at h
    · split_ifs at h
      cases h
    · cases h
  | closeDevice =>
    simp only [act] at h
    split_ifs at h
    cases h
  | reset p => cases h; exact ⟨p, rfl, rfl⟩
  | pollt ok => cases h
  | offt => cases h
  | resume c => cases h
  | switches v => cases h
  | openDevice ok => cases h

end Sys2Proof.Machine
end

