-- ==== Sys2Proof/Laws/Operands.lean ====
section
/-!
SUPPORT. What the operand computations can answer (R21, R22, R103, R163, R211, R212).
-/

namespace Sys2Proof.Machine

theorem reduceDdram_toNat (v : Nat) : (reduceDdram v).toNat = v % 80 := by
  have : v % 80 < 80 := Nat.mod_lt _ (by decide)
  simp only [reduceDdram, ddramWidth, BitVec.toNat_ofNat]
  omega

theorem reduceDdram_lt (v : Nat) : (reduceDdram v).toNat < ddramWidth := by
  rw [reduceDdram_toNat]
  exact Nat.mod_lt _ (by decide)

theorem nextAddr_toNat (a : Byte) : (nextAddr a).toNat = (a.toNat + 1) % 80 := reduceDdram_toNat _

theorem nextRow_toNat (r : Byte) : (nextRow r).toNat = (r.toNat + 1) % 2 := by
  simp only [nextRow, maxLines, BitVec.toNat_ofNat]
  omega

theorem nextRow_lt (r : Byte) : (nextRow r).toNat < maxLines := by
  rw [nextRow_toNat]
  exact Nat.mod_lt _ (by decide)

theorem clampedCol_le (col : Int) : clampedCol col ≤ 39 := by
  simp only [clampedCol, clamp, maxCol]
  split_ifs <;> omega

theorem clampedRow_le (row : Int) : clampedRow row ≤ 1 := by
  simp only [clampedRow, clamp, maxLines]
  split_ifs <;> omega

theorem singleKey_eq_some {i : Byte} {a : Nat} :
    singleKey i = some a ↔ (1 ≤ i.toNat ∧ i.toNat ≤ 8) ∧ a = 255 - 2 ^ (i.toNat - 1) := by
  unfold singleKey
  split
  · simp
    omega
  · simp
    omega

theorem comboKey_eq_some {indices : List Byte} {a : Nat} :
    comboKey indices = some a ↔ comboSum indices ≤ 254 ∧ a = 254 - comboSum indices := by
  unfold comboKey comboAddress
  split
  · simp
    omega
  · simp
    omega

/-- R221: no registration has the key 255. -/
theorem singleKey_le {i : Byte} {a : Nat} (h : singleKey i = some a) : a ≤ 254 := by
  obtain ⟨-, rfl⟩ := singleKey_eq_some.mp h
  have : 0 < 2 ^ (i.toNat - 1) := Nat.pos_of_ne_zero (by simp)
  omega

theorem comboKey_le {indices : List Byte} {a : Nat} (h : comboKey indices = some a) : a ≤ 254 := by
  obtain ⟨-, rfl⟩ := comboKey_eq_some.mp h
  omega

end Sys2Proof.Machine
end

