-- ==== Sys2Proof/Laws/Woven.lean ====
section
/-!
SUPPORT. How a property of states is carried through an activity, whatever the schedule weaves into it: what must be
shown of one event, one latch write, one step of another agent and one failed access, and what follows for every
primitive (R130 to R136).
-/

namespace Sys2Proof.Machine

/-- An activity that goes on is in a state with `P`, one that stops did so with `Q`. -/
def Ends (P : State → Prop) (Q : Stop → Prop) : Except Stop State → Prop
  | .ok s => P s
  | .error e => Q e

theorem Ends.bind {P R : State → Prop} {Q : Stop → Prop} {r : Except Stop State} {f : State → Except Stop State}
    (h : Ends P Q r) (k : ∀ s, P s → Ends R Q (f s)) : Ends R Q (r >>= f) := by
  cases r with
  | ok s => exact k s h
  | error e => exact h

theorem Ends.mono {P R : State → Prop} {Q : Stop → Prop} {r : Except Stop State} (h : Ends P Q r)
    (k : ∀ s, P s → R s) : Ends R Q r := by
  cases r with
  | ok s => exact k s h
  | error e => exact h

theorem Ends.of_conclude {P : State → Prop} {Q : Stop → Prop} {r : Except Stop State} {t : State} (h : Ends P Q r)
    (k : conclude r = .next t) : P t ∨ Q (.ended t) := by
  rcases conclude_next.mp k with rfl | rfl
  · exact .inl h
  · exact .inr h

/-- What makes `P` survive every event of an activity whose schedule only weaves in steps that meet `test`; `Q` is what
is known of a state the activity stops in. -/
structure Woven (test : Act → Bool) (P : State → Prop) (Q : Stop → Prop) : Prop where
  tested  : ∀ s, P s → weaveAll test s.weave = true
  event   : ∀ e s, P s → P (emitOwn e (popSlot s))
  latch   : ∀ v s, P s → P { s with pb := v }
  step    : ∀ a s, test a = true → P s → Ends (fun t => if t.halted then Q (.ended t) else P t) Q (act a s)
  failed  : ∀ s, P s → s.devOpen = true → Q (.ended (raiseFault (ownerOf s) (ioFaultOf s) (popSlot s)))
  closed  : ∀ s, P s → s.devOpen = false → Q (.ended (raiseFault (ownerOf s) (notOpenOf s) s))

variable {test : Act → Bool} {P : State → Prop} {Q : Stop → Prop}

theorem weaveActs_ends (w : Woven test P Q) {acts : List Act} (ha : acts.all test = true) {s : State} (h : P s) :
    Ends P Q (weaveActs acts s) := by
  induction acts generalizing s with
  | nil => exact h
  | cons a rest ih =>
    simp only [List.all_cons, Bool.and_eq_true] at ha
    refine Ends.bind (w.step a s ha.1 h) fun t ht => ?_
    by_cases hh : t.halted = true
    · simp only [hh, if_true] at ht ⊢
      exact ht
    · simp only [hh, Bool.false_eq_true, if_false] at ht ⊢
      exact ih ha.2 ht

theorem nextSlot_all {s : State} (h : weaveAll test s.weave = true) : (nextSlot s).after.all test = true := by
  unfold nextSlot
  cases hw : s.weave with
  | nil => rfl
  | cons slot rest =>
    rw [hw, weaveAll, List.all_cons, Bool.and_eq_true] at h
    exact h.1

theorem ownEvent_ends (w : Woven test P Q) {s : State} (h : P s) (e : Event) : Ends P Q (ownEvent e s) :=
  weaveActs_ends w (nextSlot_all (w.tested s h)) (w.event e s h)

theorem delay_ends (w : Woven test P Q) {s : State} (h : P s) (t : Wait) : Ends P Q (delay t s) := ownEvent_ends w h _

theorem access_ends (w : Woven test P Q) {s : State} (h : P s) (e : Event) (v : Byte) : Ends P Q (access e v s) := by
  unfold access
  split
  · next ho =>
    split
    · exact w.failed s h ho
    · exact weaveActs_ends w (nextSlot_all (w.tested s h)) (w.event e _ (w.latch v s h))
  · next ho => exact w.closed s h (by simpa using ho)

theorem bitWrite_ends (w : Woven test P Q) {s : State} (h : P s) (i : Nat) (b : Bool) : Ends P Q (bitWrite i b s) :=
  access_ends w h _ _

theorem pulseEnable_ends (w : Woven test P Q) {s : State} (h : P s) : Ends P Q (pulseEnable s) :=
  (bitWrite_ends w h _ _).bind fun _ h => (delay_ends w h _).bind fun _ h => (bitWrite_ends w h _ _).bind fun _ h =>
    delay_ends w h _

theorem sendNibble_ends (w : Woven test P Q) {s : State} (h : P s) (n : Nibble) : Ends P Q (sendNibble n s) :=
  (access_ends w h _ _).bind fun _ h => (access_ends w h _ _).bind fun _ h => pulseEnable_ends w h

theorem sendByte_ends (w : Woven test P Q) {s : State} (h : P s) (v : Byte) : Ends P Q (sendByte v s) :=
  (sendNibble_ends w h _).bind fun _ h => sendNibble_ends w h _

theorem sendBus_ends (w : Woven test P Q) {s : State} (h : P s) (rs : Bool) (v : Byte) : Ends P Q (sendBus rs v s) :=
  (bitWrite_ends w h _ _).bind fun _ h => (sendByte_ends w h _).bind fun _ h => delay_ends w h _

theorem sendSlowCommand_ends (w : Woven test P Q) {s : State} (h : P s) (v : Byte) : Ends P Q (sendSlowCommand v s) :=
  (sendBus_ends w h false v).bind fun _ h => delay_ends w h _

theorem initRaw_ends (w : Woven test P Q) {s : State} (h : P s) : Ends P Q (initRaw s) := by
  have legacy : ∀ t s, P s → Ends P Q (legacyReset t s) := fun t s h =>
    (delay_ends w h t).bind fun _ h => (sendNibble_ends w h _).bind fun _ h => delay_ends w h _
  exact (bitWrite_ends w h _ _).bind fun _ h => (legacy _ _ h).bind fun _ h => (legacy _ _ h).bind fun _ h =>
    (legacy _ _ h).bind fun _ h => (sendNibble_ends w h _).bind fun _ h => delay_ends w h _

end Sys2Proof.Machine
end

