-- ==== Sys2Proof/Laws/Bodies.lean ====
section
/-!
SUPPORT. Every LCD-touching activity, carried through whatever is woven into it: if a property survives the events
(`Woven`) and the register writes of an activity's pseudocode, it holds where the activity ends.
-/

namespace Sys2Proof.Machine

variable {test : Act → Bool} {P : State → Prop} {Q : Stop → Prop}

/-! ### Which register writes a property survives -/

/-- `ADDR` takes a value below 80 (R21). -/
abbrev KeepsAddr (P : State → Prop) : Prop := ∀ v s, v.toNat < ddramWidth → P s → P { s with addr := v }

/-- `ROW` takes a value below 2 (R22). -/
abbrev KeepsRow (P : State → Prop) : Prop := ∀ v s, v.toNat < maxLines → P s → P { s with row := v }

/-- One flag of `DC` is set or cleared. -/
abbrev KeepsDc (mask : Config → Byte) (on : Bool) (P : State → Prop) : Prop := ∀ s, P s → P (flagDc (mask s.cfg) on s)

/-- One flag of `EM` is set or cleared. -/
abbrev KeepsEm (mask : Config → Byte) (on : Bool) (P : State → Prop) : Prop := ∀ s, P s → P (flagEm (mask s.cfg) on s)

/-- INIT's loads, and its completion (R137, R324). -/
abbrev KeepsInit (P : State → Prop) : Prop :=
  ∀ s, P s → P { s with fs := s.cfg.initFs } ∧ P { s with dc := s.cfg.initDc } ∧ P { s with em := s.cfg.initEm } ∧
    P (markInit s)

/-- `DISPLAY_ON`. -/
abbrev KeepsDisplay (P : State → Prop) : Prop := ∀ b s, P s → P { s with displayOn := b }

/-- `BACKLIGHT_ON`. -/
abbrev KeepsBacklight (P : State → Prop) : Prop := ∀ b s, P s → P { s with backlightOn := b }

/-- The cancel of the timer. -/
abbrev KeepsCancel (P : State → Prop) : Prop := ∀ s, P s → P { s with timeoutActive := false }

/-- The start of the timer. -/
abbrev KeepsArm (P : State → Prop) : Prop := ∀ ms s, P s → P (armTimer ms s)

/-! ### The bodies -/

theorem cursorHome_keeps (ha : KeepsAddr P) (hr : KeepsRow P) {s : State} (h : P s) : P (cursorHome s) :=
  hr 0 _ (by decide) (ha 0 s (by decide) h)

theorem clearBody_ends (w : Woven test P Q) (ha : KeepsAddr P) (hr : KeepsRow P) {s : State} (h : P s) :
    Ends P Q (clearBody s) :=
  (sendSlowCommand_ends w h _).bind fun _ h => cursorHome_keeps ha hr h

theorem homeBody_ends (w : Woven test P Q) (ha : KeepsAddr P) (hr : KeepsRow P) {s : State} (h : P s) :
    Ends P Q (homeBody s) :=
  (sendSlowCommand_ends w h _).bind fun _ h => cursorHome_keeps ha hr h

theorem initBody_ends (w : Woven test P Q) (hi : KeepsInit P) (ha : KeepsAddr P) (hr : KeepsRow P) {s : State}
    (h : P s) : Ends P Q (initBody s) :=
  (initRaw_ends w h).bind fun s h => (sendBus_ends w (hi s h).1 _ _).bind fun s h =>
    (sendBus_ends w (hi s h).2.1 _ _).bind fun s h => (sendBus_ends w (hi s h).2.2.1 _ _).bind fun _ h =>
      (sendSlowCommand_ends w h _).bind fun _ h => (hi _ (cursorHome_keeps ha hr h)).2.2.2

theorem setDdram_ends (w : Woven test P Q) (ha : KeepsAddr P) (v : Nat) {s : State} (h : P s) :
    Ends P Q (setDdram v s) :=
  (sendBus_ends w h _ _).bind fun s h => ha _ s (reduceDdram_lt v) h

theorem sendChar_ends (w : Woven test P Q) (ha : KeepsAddr P) (d : Byte) {s : State} (h : P s) :
    Ends P Q (sendChar d s) :=
  (sendBus_ends w h _ _).bind fun s h => ha _ s (reduceDdram_lt _) h

theorem writeText_ends (w : Woven test P Q) (ha : KeepsAddr P) (hr : KeepsRow P) (text : List Byte) {s : State}
    (h : P s) : Ends P Q (writeText text s) := by
  induction text generalizing s with
  | nil => exact h
  | cons b rest ih =>
    rw [writeText]
    split
    · exact (setDdram_ends w ha _ (hr _ s (nextRow_lt _) h)).bind fun s h => ih h
    · exact (sendChar_ends w ha b h).bind fun s h => ih h

theorem writeBody_ends (w : Woven test P Q) (ha : KeepsAddr P) (hr : KeepsRow P) (text : List Byte) {s : State}
    (h : P s) : Ends P Q (writeBody text s) :=
  (sendBus_ends w h _ _).bind fun _ h => writeText_ends w ha hr text h

theorem setcurBody_ends (w : Woven test P Q) (ha : KeepsAddr P) (hr : KeepsRow P) (col row : Int) {s : State}
    (h : P s) : Ends P Q (setcurBody col row s) :=
  (setDdram_ends w ha _ h).bind fun s h =>
    hr _ s (by have := clampedRow_le row; simp only [BitVec.toNat_ofNat, maxLines]; omega) h

theorem dcBody_ends (w : Woven test P Q) {mask : Byte} {on : Bool} {s : State} (h : P (flagDc mask on s)) :
    Ends P Q (dcBody mask on s) := sendBus_ends w h _ _

theorem emBody_ends (w : Woven test P Q) {mask : Byte} {on : Bool} {s : State} (h : P (flagEm mask on s)) :
    Ends P Q (emBody mask on s) := sendBus_ends w h _ _

theorem backlightBody_ends (w : Woven test P Q) (on : Bool) {s : State} (h : P s) : Ends P Q (backlightBody on s) :=
  bitWrite_ends w h _ _

theorem sendRows_ends (w : Woven test P Q) (rows : List Byte) {s : State} (h : P s) : Ends P Q (sendRows rows s) := by
  induction rows generalizing s with
  | nil => exact h
  | cons d rest ih => exact (sendBus_ends w h _ _).bind fun _ h => ih h

theorem storegBody_ends (w : Woven test P Q) (loc : Byte) (g : Glyph) {s : State} (h : P s) :
    Ends P Q (storegBody loc g s) := (sendBus_ends w h _ _).bind fun _ h => sendRows_ends w _ h

theorem writegBody_ends (w : Woven test P Q) (ha : KeepsAddr P) (loc : Byte) {s : State} (h : P s) :
    Ends P Q (writegBody loc s) := (sendBus_ends w h _ _).bind fun _ h => sendChar_ends w ha loc h

theorem displayOnBody_ends (w : Woven test P Q) (hd : KeepsDc (·.dcD) true P) (hp : KeepsDisplay P) {s : State}
    (h : P s) : Ends P Q (displayOnBody s) := by
  unfold displayOnBody
  split
  · exact h
  · exact (dcBody_ends w (hd s h)).bind fun s h => hp true s h

theorem backlightOnBody_ends (w : Woven test P Q) (hb : KeepsBacklight P) {s : State} (h : P s) :
    Ends P Q (backlightOnBody s) := by
  unfold backlightOnBody
  split
  · exact h
  · exact (backlightBody_ends w true h).bind fun s h => hb true s h

theorem backlightOffBody_ends (w : Woven test P Q) (hb : KeepsBacklight P) {s : State} (h : P s) :
    Ends P Q (backlightOffBody s) := by
  unfold backlightOffBody
  split
  · exact (backlightBody_ends w false h).bind fun s h => hb false s h
  · exact h

theorem displayOffBody_ends (w : Woven test P Q) (hd : KeepsDc (·.dcD) false P) (hp : KeepsDisplay P)
    (hb : KeepsBacklight P) {s : State} (h : P s) : Ends P Q (displayOffBody s) := by
  unfold displayOffBody
  split
  · exact (dcBody_ends w (hd s h)).bind fun s h => backlightOffBody_ends w hb (hp false s h)
  · exact h

theorem sdispBody_ends (w : Woven test P Q) (hon : KeepsDc (·.dcD) true P) (hoff : KeepsDc (·.dcD) false P)
    (hp : KeepsDisplay P) (hb : KeepsBacklight P) (st : Byte) {s : State} (h : P s) : Ends P Q (sdispBody st s) := by
  unfold sdispBody
  split
  · exact displayOnBody_ends w hon hp h
  · exact displayOffBody_ends w hoff hp hb h

theorem sblBody_ends (w : Woven test P Q) (hb : KeepsBacklight P) (st : Byte) {s : State} (h : P s) :
    Ends P Q (sblBody st s) := by
  unfold sblBody
  split
  · exact backlightOnBody_ends w hb h
  · exact backlightOffBody_ends w hb h

/-- The property survives a session write, and what a write that waits for ever needs is known. -/
structure SessionWrite (P : State → Prop) (Q : Stop → Prop) : Prop where
  addr      : KeepsAddr P
  row       : KeepsRow P
  dc        : KeepsDc (·.dcD) true P
  display   : KeepsDisplay P
  backlight : KeepsBacklight P
  cancel    : KeepsCancel P
  hang      : ∀ s, P s → s.expBusy = true → Q (.ended s)

theorem swriteBody_ends (w : Woven test P Q) (k : SessionWrite P Q) (text : List Byte) {s : State} (h : P s) :
    Ends P Q (swriteBody text s) := by
  refine Ends.bind (P := P) ?_ fun s h => Ends.bind (P := P) ?_ fun s h => writeBody_ends w k.addr k.row text h
  · unfold powerUp
    split
    · exact h
    · exact (displayOnBody_ends w k.dc k.display h).bind fun s h => backlightOnBody_ends w k.backlight h
  · unfold cancelPending cancelTimer
    split
    · split
      · next hb => exact k.hang s h hb
      · exact k.cancel s h
    · exact h

theorem swritetBody_ends (w : Woven test P Q) (k : SessionWrite P Q) (ht : KeepsArm P) (text : List Byte) (ms : Word32)
    {s : State} (h : P s) : Ends P Q (swritetBody text ms s) :=
  (swriteBody_ends w k text h).bind fun s h => ht ms s h

/-! ### Whole operations -/

/-- How an LCD-touching operation reaches a next state: refused, turned away by another activity, stopped part-way, or
ended. -/
theorem lcdOp_next {op : OpName} {body : State → Except Stop State} {result : State → Byte} {s t : State}
    (h : lcdOp op body result s = .next t)
    (e : s.halted = false → s.seq = .idle → Ends P Q (body { s with seq := .busy (agentOf s.issuer) op 0 })) :
    (s.halted = true ∧ t = refuse s.issuer .halted s) ∨
      (s.halted = false ∧ ∃ a op' n, s.seq = .busy a op' n ∧
        t = raiseFault (.host s.issuer) (.concurrentLcd op op') s) ∨
      (s.halted = false ∧ s.seq = .idle ∧ (Q (.ended t) ∨ ∃ u, P u ∧ t = finishOp (result u) u)) := by
  unfold lcdOp at h
  cases hh : s.halted with
  | true =>
    rw [accept_halted hh] at h
    cases h
    exact .inl ⟨rfl, rfl⟩
  | false =>
    rw [accept_live hh, bind_ok, startOp] at h
    cases hs : s.seq with
    | busy a op' n =>
      rw [startLcd_busy hs] at h
      cases h
      exact .inr (.inl ⟨rfl, a, op', n, rfl, rfl⟩)
    | idle =>
      rw [startLcd_idle hs, bind_ok] at h
      refine .inr (.inr ⟨rfl, rfl, ?_⟩)
      have k : Ends (fun u => ∃ v, P v ∧ u = finishOp (result v) v) Q _ :=
        (e hh hs).bind fun v hv => (show Ends _ _ (Except.ok (finishOp (result v) v)) from ⟨v, hv, rfl⟩)
      exact (k.of_conclude h).symm

/-- How SDISP and SBL reach a next state. -/
theorem switchOp_next {op : OpName} {good touching : Bool} {body : State → Except Stop State} {s t : State}
    (h : switchOp op good touching body s = .next t)
    (e : s.halted = false → s.seq = .idle → Ends P Q (body { s with seq := .busy (agentOf s.issuer) op 0 })) :
    (∃ r, t = respond s.issuer r s) ∨
      (s.halted = false ∧ ∃ a op' n, s.seq = .busy a op' n ∧
        t = raiseFault (.host s.issuer) (.concurrentLcd op op') s) ∨
      (s.halted = false ∧ s.seq = .idle ∧ (Q (.ended t) ∨ ∃ u, P u ∧ t = finishOp 0 u)) := by
  unfold switchOp at h
  cases hh : s.halted with
  | true =>
    rw [accept_halted hh] at h
    cases h
    exact .inl ⟨_, rfl⟩
  | false =>
    rw [accept_live hh, bind_ok] at h
    cases good with
    | false =>
      cases h
      exact .inl ⟨_, rfl⟩
    | true =>
      cases touching with
      | false =>
        cases h
        exact .inl ⟨_, rfl⟩
      | true =>
        simp only [demand, if_true, bind_ok, startOp] at h
        cases hs : s.seq with
        | busy a op' n =>
          rw [startLcd_busy hs] at h
          cases h
          exact .inr (.inl ⟨rfl, a, op', n, rfl, rfl⟩)
        | idle =>
          rw [startLcd_idle hs, bind_ok] at h
          refine .inr (.inr ⟨rfl, rfl, ?_⟩)
          have k : Ends (fun u => ∃ v, P v ∧ u = finishOp 0 v) Q _ :=
            (e hh hs).bind fun v hv => (show Ends _ _ (Except.ok (finishOp 0 v)) from ⟨v, hv, rfl⟩)
          exact (k.of_conclude h).symm

/-- How an expiry reaches a next state: there was none to take, it collided, it stopped part-way, or it ended. -/
theorem expire_next {s t : State} (h : expire s = .next t)
    (w : Woven test P Q) (ha : KeepsAddr P) (hr : KeepsRow P) (hd : KeepsDc (·.dcD) false P) (hp : KeepsDisplay P)
    (hb : KeepsBacklight P)
    (start : s.timeoutActive = true → s.halted = false → s.seq = .idle →
      P { s with expBusy := true, timeoutActive := false, seq := .busy .offt .expire 0 }) :
    t = s ∨
      (s.halted = false ∧ ∃ a op n, s.seq = .busy a op n ∧ t = raiseFault .expire (.concurrentLcd .expire op)
        { s with expBusy := true, timeoutActive := false }) ∨
      Q (.ended t) ∨ ∃ u, P u ∧ t = { u with expBusy := false, seq := .idle } := by
  unfold expire at h
  split at h
  · next hc =>
    simp only [Bool.and_eq_true, Bool.not_eq_true'] at hc
    dsimp only at h
    cases hs : s.seq with
    | busy a op n =>
      rw [startLcd_busy (by exact hs)] at h
      cases h
      exact .inr (.inl ⟨hc.2, a, op, n, rfl, by rw [hs]⟩)
    | idle =>
      rw [startLcd_idle (by exact hs), bind_ok] at h
      refine .inr (.inr ?_)
      have k : Ends (fun u => ∃ v, P v ∧ u = { v with expBusy := false, seq := .idle }) Q _ :=
        (clearBody_ends w ha hr (start hc.1 hc.2 hs)).bind fun v hv =>
          (displayOffBody_ends w hd hp hb hv).bind fun v hv =>
            (show Ends _ _ (Except.ok { v with expBusy := false, seq := .idle }) from ⟨v, hv, rfl⟩)
      exact (k.of_conclude h).symm
  · cases h
    exact .inl rfl

end Sys2Proof.Machine
end

