-- ==== Sys2Proof/Laws/Decode.lean ====
section
/-!
SUPPORT. The little-endian fields of packets read back (R67, R91).
-/

namespace Sys2Proof

theorem le16_bytes16 {n : Nat} (h : n < 65536) : le16 (BitVec.ofNat 8 n) (BitVec.ofNat 8 (n / 256)) = n := by
  simp only [le16, BitVec.toNat_ofNat]
  omega

theorem le16_lt (a b : Byte) : le16 a b < 65536 := by
  have := a.isLt
  have := b.isLt
  simp only [le16]
  omega

theorem bytes16_le16 (a b : Byte) : bytes16 (le16 a b) = [a, b] := by
  have := a.isLt
  have := b.isLt
  simp only [bytes16, le16, List.cons.injEq, and_true]
  constructor <;> apply BitVec.eq_of_toNat_eq <;> simp only [BitVec.toNat_ofNat] <;> omega

theorem le32_bytes32 (v : Word32) :
    le32 (v.extractLsb' 0 8) (v.extractLsb' 8 8) (v.extractLsb' 16 8) (v.extractLsb' 24 8) = v := by
  apply BitVec.eq_of_getLsbD_eq
  intro i hi
  simp only [le32, BitVec.getLsbD_append, BitVec.getLsbD_extractLsb']
  grind

theorem bytes32_le32 (a b c d : Byte) : bytes32 (le32 a b c d) = [a, b, c, d] := by
  simp only [bytes32, le32, List.cons.injEq, and_true]
  refine ⟨?_, ?_, ?_, ?_⟩ <;> apply BitVec.eq_of_getLsbD_eq <;> intro i hi <;>
    simp only [BitVec.getLsbD_append, BitVec.getLsbD_extractLsb'] <;> grind

end Sys2Proof
end

