-- ==== Sys2Proof/Laws/Exec.lean ====
section
/-!
SUPPORT. Everything an operation can do, said once for all 28: it is answered without an event, it is one atomic step of
the poller, it is turned away by another activity, or it runs and a property that survives its events and its register
writes holds where it ends.
-/

namespace Sys2Proof.Machine

variable {test : Act → Bool} {P : State → Prop} {Q : Stop → Prop}

/-- The property survives the register writes of every operation. -/
structure Kept (P : State → Prop) (Q : Stop → Prop) : Prop extends SessionWrite P Q where
  init   : KeepsInit P
  arm    : KeepsArm P
  dcdOff : KeepsDc (·.dcD) false P
  dcc    : ∀ on, KeepsDc (·.dcC) on P
  dcb    : ∀ on, KeepsDc (·.dcB) on P
  ems    : ∀ on, KeepsEm (·.emS) on P
  emid   : ∀ on, KeepsEm (·.emId) on P

/-- How an operation reaches a next state. -/
inductive Reached (P : State → Prop) (Q : Stop → Prop) (i : Instr) (s t : State) : Prop where
  /-- refused, or answered with nothing to do -/
  | answered (r : Response) (h : t = respond s.issuer r s)
  /-- one of the poller's five operations -/
  | atomic (live : s.halted = false) (h : t = atomicOp s.issuer i s)
  /-- R265 -/
  | turnedAway (live : s.halted = false) (op inFlight : OpName) (a : Agent) (n : Nat)
      (hs : s.seq = .busy a inFlight n) (h : t = raiseFault (.host s.issuer) (.concurrentLcd op inFlight) s)
  /-- an LCD-touching operation that stopped part-way -/
  | stopped (live : s.halted = false) (hs : s.seq = .idle) (h : Q (.ended t))
  /-- an LCD-touching operation that ended -/
  | ended (live : s.halted = false) (hs : s.seq = .idle) (u : State) (v : Byte) (hu : P u) (h : t = finishOp v u)

theorem lcdOp_reached {op : OpName} {body : State → Except Stop State} {result : State → Byte} {i : Instr}
    {s t : State} (h : lcdOp op body result s = .next t)
    (e : s.halted = false → s.seq = .idle → Ends P Q (body { s with seq := .busy (agentOf s.issuer) op 0 })) :
    Reached P Q i s t := by
  rcases lcdOp_next h e with ⟨-, rfl⟩ | ⟨hh, a, op', n, hs, rfl⟩ | ⟨hh, hs, hq | ⟨u, hu, rfl⟩⟩
  · exact .answered _ rfl
  · exact .turnedAway hh op op' a n hs rfl
  · exact .stopped hh hs hq
  · exact .ended hh hs u _ hu rfl

theorem switchOp_reached {op : OpName} {good touching : Bool} {body : State → Except Stop State} {i : Instr}
    {s t : State} (h : switchOp op good touching body s = .next t)
    (e : s.halted = false → s.seq = .idle → Ends P Q (body { s with seq := .busy (agentOf s.issuer) op 0 })) :
    Reached P Q i s t := by
  rcases switchOp_next h e with ⟨r, rfl⟩ | ⟨hh, a, op', n, hs, rfl⟩ | ⟨hh, hs, hq | ⟨u, hu, rfl⟩⟩
  · exact .answered _ rfl
  · exact .turnedAway hh op op' a n hs rfl
  · exact .stopped hh hs hq
  · exact .ended hh hs u _ hu rfl

theorem unlessHalted_reached {f : State → State} {i : Instr} {s t : State}
    (h : Host.Outcome.next (unlessHalted s.issuer f s) = (.next t : Host.Outcome State Fault Refusal))
    (hf : f s = atomicOp s.issuer i s) : Reached P Q i s t := by
  cases h
  unfold unlessHalted
  split
  · exact .answered _ rfl
  · next hh => exact .atomic (by simpa using hh) hf

/-- Every operation, under a property that survives its events and its register writes. -/
theorem exec_reached (w : Woven test P Q) (k : Kept P Q) {i : Instr} {s t : State} (h : exec i s = .next t)
    (start : s.halted = false → s.seq = .idle → ∀ op, P { s with seq := .busy (agentOf s.issuer) op 0 }) :
    Reached P Q i s t := by
  cases i with
  | init => exact lcdOp_reached h fun hh hs => initBody_ends w k.init k.addr k.row (start hh hs _)
  | write text => exact lcdOp_reached h fun hh hs => writeBody_ends w k.addr k.row text (start hh hs _)
  | setcur col row => exact lcdOp_reached h fun hh hs => setcurBody_ends w k.addr k.row col row (start hh hs _)
  | clear => exact lcdOp_reached h fun hh hs => clearBody_ends w k.addr k.row (start hh hs _)
  | home => exact lcdOp_reached h fun hh hs => homeBody_ends w k.addr k.row (start hh hs _)
  | dispon => exact lcdOp_reached h fun hh hs => dcBody_ends w (k.dc _ (start hh hs _))
  | dispoff => exact lcdOp_reached h fun hh hs => dcBody_ends w (k.dcdOff _ (start hh hs _))
  | curon => exact lcdOp_reached h fun hh hs => dcBody_ends w (k.dcc true _ (start hh hs _))
  | curoff => exact lcdOp_reached h fun hh hs => dcBody_ends w (k.dcc false _ (start hh hs _))
  | blinkon => exact lcdOp_reached h fun hh hs => dcBody_ends w (k.dcb true _ (start hh hs _))
  | blinkoff => exact lcdOp_reached h fun hh hs => dcBody_ends w (k.dcb false _ (start hh hs _))
  | blon => exact lcdOp_reached h fun hh hs => backlightBody_ends w true (start hh hs _)
  | bloff => exact lcdOp_reached h fun hh hs => backlightBody_ends w false (start hh hs _)
  | ascron => exact lcdOp_reached h fun hh hs => emBody_ends w (k.ems true _ (start hh hs _))
  | ascroff => exact lcdOp_reached h fun hh hs => emBody_ends w (k.ems false _ (start hh hs _))
  | ltr => exact lcdOp_reached h fun hh hs => emBody_ends w (k.emid true _ (start hh hs _))
  | rtl => exact lcdOp_reached h fun hh hs => emBody_ends w (k.emid false _ (start hh hs _))
  | storeg loc g => exact lcdOp_reached h fun hh hs => storegBody_ends w loc g (start hh hs _)
  | writeg loc => exact lcdOp_reached h fun hh hs => writegBody_ends w k.addr loc (start hh hs _)
  | regs index id => exact unlessHalted_reached h rfl
  | regc id indices => exact unlessHalted_reached h rfl
  | setint ms => exact unlessHalted_reached h rfl
  | pollstart => exact unlessHalted_reached h rfl
  | pollstop => exact unlessHalted_reached h rfl
  | swrite text => exact lcdOp_reached h fun hh hs => swriteBody_ends w k.toSessionWrite text (start hh hs _)
  | swritet text ms =>
    exact lcdOp_reached h fun hh hs => swritetBody_ends w k.toSessionWrite k.arm text ms (start hh hs _)
  | sdisp st =>
    exact switchOp_reached h fun hh hs => sdispBody_ends w k.dc k.dcdOff k.display k.backlight st (start hh hs _)
  | sbl st => exact switchOp_reached h fun hh hs => sblBody_ends w k.backlight st (start hh hs _)

end Sys2Proof.Machine
end

