-- ==== Sys2Proof/Laws/Memory.lean ====
section
/-!
SUPPORT. The handler map: reading after a store, and that every store keeps the canonical form (R28).
-/

namespace Sys2Proof.Machine

theorem read_insert (m : Memory) (a : Nat) (h : Byte) (b : Nat) (free : Memory.read m a = none) :
    Memory.read (Memory.insert m a h) b = if b = a then some h else Memory.read m b := by
  induction m with
  | nil => simp [Memory.insert, Memory.read]
  | cons cell rest ih =>
    obtain ⟨c, k⟩ := cell
    have hac : a ≠ c := by
      rintro rfl
      simp [Memory.read] at free
    have hrest : Memory.read rest a = none := by simpa [Memory.read, hac] using free
    unfold Memory.insert
    by_cases hlt : a < c
    · simp [hlt, Memory.read]
    · simp only [hlt, if_false, hac, Memory.read, ih hrest]
      by_cases hbc : b = c
      · subst hbc
        simp [Ne.symm hac]
      · simp [hbc]

/-- R211, R212: the first registration of a key is stored, a later one is ignored, no other key changes. -/
theorem read_register (m : Memory) (a : Nat) (h : Byte) (b : Nat) :
    Memory.read (Memory.register m a h) b =
      if b = a ∧ Memory.read m a = none then some h else Memory.read m b := by
  unfold Memory.register
  split
  · next free => rw [read_insert m a h b free]; simp [free]
  · next k taken => simp [taken]

theorem risingFrom_mono {low low' : Nat} (hle : low' ≤ low) {m : Memory} (hm : Memory.risingFrom low m = true) :
    Memory.risingFrom low' m = true := by
  cases m with
  | nil => rfl
  | cons cell rest =>
    simp only [Memory.risingFrom, Bool.and_eq_true, decide_eq_true_eq] at hm ⊢
    exact ⟨by omega, hm.2⟩

theorem risingFrom_insert {m : Memory} {low a : Nat} {h : Byte} (hm : Memory.risingFrom low m = true) (hlow : low ≤ a) :
    Memory.risingFrom low (Memory.insert m a h) = true := by
  induction m generalizing low with
  | nil => simpa [Memory.insert, Memory.risingFrom] using hlow
  | cons cell rest ih =>
    obtain ⟨b, k⟩ := cell
    simp only [Memory.risingFrom, Bool.and_eq_true, decide_eq_true_eq] at hm
    unfold Memory.insert
    by_cases hlt : a < b
    · simp only [hlt, if_true, Memory.risingFrom, Bool.and_eq_true, decide_eq_true_eq]
      exact ⟨hlow, by omega, hm.2⟩
    · by_cases heq : a = b
      · subst heq
        simpa [hlt, Memory.risingFrom, hlow] using hm.2
      · simp only [hlt, if_false, heq, Memory.risingFrom, Bool.and_eq_true, decide_eq_true_eq]
        exact ⟨hm.1, ih hm.2 (by omega)⟩

theorem all_insert {m : Memory} {a : Nat} {h : Byte} {p : Host.Cell → Bool} (hm : m.all p = true)
    (ha : p (a, h) = true) : (Memory.insert m a h).all p = true := by
  induction m with
  | nil => simpa [Memory.insert] using ha
  | cons cell rest ih =>
    obtain ⟨b, k⟩ := cell
    simp only [List.all_cons, Bool.and_eq_true] at hm
    unfold Memory.insert
    split
    · simp only [List.all_cons, Bool.and_eq_true]
      exact ⟨ha, hm.1, hm.2⟩
    · split
      · simp only [List.all_cons, Bool.and_eq_true]
        exact ⟨ha, hm.2⟩
      · simp only [List.all_cons, Bool.and_eq_true]
        exact ⟨hm.1, ih hm.2⟩

/-- R28: a registration at an address below 256 keeps the canonical form. -/
theorem wf_register {m : Memory} {a : Nat} {h : Byte} (hm : Memory.wf m = true) (ha : a < 256) :
    Memory.wf (Memory.register m a h) = true := by
  simp only [Memory.wf, Bool.and_eq_true] at hm
  unfold Memory.register
  split
  · simp only [Memory.wf, Bool.and_eq_true]
    exact ⟨risingFrom_insert hm.1 (Nat.zero_le a), all_insert hm.2 (by simpa using ha)⟩
  · simp [Memory.wf, hm.1, hm.2]

theorem reset_map_wf : Memory.wf State.reset.map = true := rfl

end Sys2Proof.Machine
end

