-- ==== Sys2Proof/Laws/Observer.lean ====
section
/-!
SUPPORT. The observer of the pins (R77): it reads a trace piece by piece, and in a trace without an INIT it pairs the
latched nibbles two by two.
-/

namespace Sys2Proof.Machine

theorem watchBytes_append (c : Config) (w : Watch) (es fs : List Event) :
    watchBytes c w (es ++ fs) = watchBytes c w es ++ watchBytes c (watchAfter c w es) fs := by
  induction es generalizing w with
  | nil => rfl
  | cons e rest ih => simp only [List.cons_append, watchBytes, watchAfter, ih, List.append_assoc]

theorem watchAfter_append (c : Config) (w : Watch) (es fs : List Event) :
    watchAfter c w (es ++ fs) = watchAfter c (watchAfter c w es) fs := by
  induction es generalizing w with
  | nil => rfl
  | cons e rest ih => exact ih _

/-- The event is a delay that only INIT makes. -/
def isSetup : Event → Bool
  | .dly .setup0 => true
  | .dly .setup1 => true
  | .dly .setup2 => true
  | _ => false

/-- With a high nibble waiting or not, and no INIT to come, the nibbles pair up. -/
theorem watchBytes_paired (c : Config) (high : Option (Bool × Nibble)) (pb : Byte) (es : List Event)
    (h : ∀ e ∈ es, isSetup e = false) :
    watchBytes c ⟨.paired high, pb⟩ es = pairNibbles (high.toList ++ latched c pb es) := by
  induction es generalizing high pb with
  | nil => cases high <;> rfl
  | cons e rest ih =>
    have k := fun high pb => ih high pb fun e he => h e (List.mem_cons_of_mem _ he)
    have he := h e List.mem_cons_self
    cases e with
    | rd r v => exact k high pb
    | wr r v => cases r <;> exact k _ _
    | bw r i b =>
      cases r with
      | sw => exact k _ _
      | pb =>
        simp only [watchBytes, watchEvent, latched]
        split
        · cases high with
          | none => simpa [strobe] using k (some _) _
          | some p => simp [strobe, pairNibbles, k]
        · simpa [selected] using k high _
    | dly t => cases t <;> first | exact k high pb | cases he
    | disp _ => exact k high pb
    | hret _ => exact k high pb
    | resp _ _ => exact k high pb

/-- R77, of a trace without an INIT that starts between two bytes. -/
theorem busBytes_eq_pairs (c : Config) (pb : Byte) (es : List Event) (h : ∀ e ∈ es, isSetup e = false) :
    busBytes c pb es = pairNibbles (latched c pb es) := watchBytes_paired c none pb es h

end Sys2Proof.Machine
end

