-- ==== Sys2Proof/Laws/PerInstr.lean ====
section
/-!
SUPPORT. Per instruction: the packet of a well-formed operation has the length its opcode's format demands (R91, R95).
-/

namespace Sys2Proof.Laws.Framed

/-- The encoded packet begins with a legal opcode and has the length that opcode's format demands. -/
def Statement (i : Instr) : Prop :=
  i.WellFormed = true → ∃ op rest f, encode i = op :: rest ∧ formatOf op = some f ∧
    (encode i).length = packetLength f (rest.getD 0 0) (rest.getD 1 0)

theorem init : Statement .init := fun _ => ⟨_, _, .n, rfl, rfl, rfl⟩

theorem write (text : List Byte) : Statement (.write text) := fun h => by
  refine ⟨_, _, .s, rfl, rfl, ?_⟩
  simp only [Instr.WellFormed, fitsLength16, decide_eq_true_eq] at h
  simp [encode, bytes16, packetLength, le16_bytes16 h]
  omega

theorem setcur (col row : Int) : Statement (.setcur col row) := fun _ => ⟨_, _, .c, rfl, rfl, rfl⟩

theorem clear : Statement .clear := fun _ => ⟨_, _, .n, rfl, rfl, rfl⟩

theorem home : Statement .home := fun _ => ⟨_, _, .n, rfl, rfl, rfl⟩

theorem dispon : Statement .dispon := fun _ => ⟨_, _, .n, rfl, rfl, rfl⟩

theorem dispoff : Statement .dispoff := fun _ => ⟨_, _, .n, rfl, rfl, rfl⟩

theorem curon : Statement .curon := fun _ => ⟨_, _, .n, rfl, rfl, rfl⟩

theorem curoff : Statement .curoff := fun _ => ⟨_, _, .n, rfl, rfl, rfl⟩

theorem blinkon : Statement .blinkon := fun _ => ⟨_, _, .n, rfl, rfl, rfl⟩

theorem blinkoff : Statement .blinkoff := fun _ => ⟨_, _, .n, rfl, rfl, rfl⟩

theorem blon : Statement .blon := fun _ => ⟨_, _, .n, rfl, rfl, rfl⟩

theorem bloff : Statement .bloff := fun _ => ⟨_, _, .n, rfl, rfl, rfl⟩

theorem ascron : Statement .ascron := fun _ => ⟨_, _, .n, rfl, rfl, rfl⟩

theorem ascroff : Statement .ascroff := fun _ => ⟨_, _, .n, rfl, rfl, rfl⟩

theorem ltr : Statement .ltr := fun _ => ⟨_, _, .n, rfl, rfl, rfl⟩

theorem rtl : Statement .rtl := fun _ => ⟨_, _, .n, rfl, rfl, rfl⟩

theorem storeg (loc : Byte) (rows : Glyph) : Statement (.storeg loc rows) := fun _ => ⟨_, _, .g, rfl, rfl, rfl⟩

theorem writeg (loc : Byte) : Statement (.writeg loc) := fun _ => ⟨_, _, .b, rfl, rfl, rfl⟩

theorem regs (index h : Byte) : Statement (.regs index h) := fun _ => ⟨_, _, .c, rfl, rfl, rfl⟩

theorem regc (h : Byte) (indices : List Byte) : Statement (.regc h indices) := fun hw => by
  refine ⟨_, _, .k, rfl, rfl, ?_⟩
  simp only [Instr.WellFormed, fitsCount8, decide_eq_true_eq] at hw
  simp [encode, packetLength]
  omega

theorem setint (ms : Word32) : Statement (.setint ms) := fun _ => ⟨_, _, .w, rfl, rfl, rfl⟩

theorem pollstart : Statement .pollstart := fun _ => ⟨_, _, .n, rfl, rfl, rfl⟩

theorem pollstop : Statement .pollstop := fun _ => ⟨_, _, .n, rfl, rfl, rfl⟩

theorem swrite (text : List Byte) : Statement (.swrite text) := fun h => by
  refine ⟨_, _, .s, rfl, rfl, ?_⟩
  simp only [Instr.WellFormed, fitsLength16, decide_eq_true_eq] at h
  simp [encode, bytes16, packetLength, le16_bytes16 h]
  omega

theorem swritet (text : List Byte) (ms : Word32) : Statement (.swritet text ms) := fun h => by
  refine ⟨_, _, .t, rfl, rfl, ?_⟩
  simp only [Instr.WellFormed, fitsLength16, decide_eq_true_eq] at h
  simp [encode, bytes16, bytes32, packetLength, le16_bytes16 h]
  omega

theorem sdisp (state : Byte) : Statement (.sdisp state) := fun _ => ⟨_, _, .b, rfl, rfl, rfl⟩

theorem sbl (state : Byte) : Statement (.sbl state) := fun _ => ⟨_, _, .b, rfl, rfl, rfl⟩

end Sys2Proof.Laws.Framed
end

