-- ==== Sys2Proof/Laws/Port.lean ====
section
/-!
SUPPORT. The bits of port B (R62, R64, R66): what each write of the latch does to each bit, and what a strobe, a nibble
and a bus byte leave.
-/

namespace Sys2Proof.Machine

/-- R64: a single-bit write changes that bit alone. -/
theorem bitOf_setBit (pb : Byte) (i : Nat) (b : Bool) {k : Nat} (hk : k < 8) :
    bitOf (setBit pb i b) k = if k = i then b else bitOf pb k := by
  unfold bitOf setBit
  simp only [BitVec.getLsbD_or, BitVec.getLsbD_and, BitVec.getLsbD_not]
  by_cases h : k = i
  · subst h
    cases b <;> simp [hk]
  · cases b <;> simp [hk, h]
    · omega
    · have : pb[k] = pb.getLsbD k := rfl
      by_cases h' : k < i
      · simp [h']
      · have : k - i ≠ 0 := by omega
        simp [h', this]

/-- R132: a merged nibble takes bits 3:0 and keeps bits 7:4. -/
theorem bitOf_putNibble (pb : Byte) (n : Nibble) {k : Nat} (hk : k < 8) :
    bitOf (putNibble pb n) k = if k < 4 then n.getLsbD k else bitOf pb k := by
  unfold bitOf putNibble
  simp only [BitVec.getLsbD_or, BitVec.getLsbD_and, BitVec.getLsbD_setWidth]
  have mask : (0xF0#8).getLsbD k = decide (4 ≤ k) := by interval_cases k <;> rfl
  rw [mask]
  by_cases h : k < 4
  · have h' : ¬ 4 ≤ k := by omega
    simp [h, h', hk]
  · have h' : 4 ≤ k := by omega
    simp [h, h', hk]

/-- Bits 3:0 of the latch, from its bits. -/
theorem lowNibble_eq {p : Byte} {n : Nibble} (h : ∀ k < 4, bitOf p k = n.getLsbD k) : lowNibble p = n := by
  apply BitVec.eq_of_getLsbD_eq
  intro i hi
  simp only [lowNibble, BitVec.getLsbD_extractLsb', hi, decide_true, Bool.true_and, Nat.zero_add]
  exact h i hi

/-- R66: a byte is its high nibble before its low one. -/
theorem highNibble_append_lowNibble (v : Byte) : highNibble v ++ lowNibble v = v := by
  apply BitVec.eq_of_getLsbD_eq
  intro i hi
  simp only [highNibble, lowNibble, BitVec.getLsbD_append, BitVec.getLsbD_extractLsb']
  by_cases h : i < 4
  · simp [h]
  · have h' : i - 4 < 4 := by omega
    simp only [h, h', decide_true, decide_false, Bool.true_and, if_false]
    congr 1
    omega

/-- What a strobed nibble leaves on each line (R132, R139). -/
theorem bitOf_nibblePb {c : Config} (hc : c.PinsOk) (n : Nibble) (pb : Byte) {k : Nat} (hk : k < 8) :
    bitOf (nibblePb c n pb) k = if k = c.pinEn then false else if k < 4 then n.getLsbD k else bitOf pb k := by
  have := hc.1
  simp only [nibblePb, pulsedPb, bitOf_setBit _ _ _ hk, bitOf_putNibble _ _ hk]
  split_ifs <;> rfl

/-- What a bus byte leaves on each line (R139). -/
theorem bitOf_busPb {c : Config} (hc : c.PinsOk) (rs : Bool) (v pb : Byte) {k : Nat} (hk : k < 8) :
    bitOf (busPb c rs v pb) k =
      if k = c.pinEn then false else if k < 4 then (lowNibble v).getLsbD k
      else if k = c.pinRs then rs else bitOf pb k := by
  simp only [busPb, bytePb, bitOf_nibblePb hc _ _ hk, bitOf_setBit _ _ _ hk]
  split_ifs <;> rfl

end Sys2Proof.Machine
end

