-- ==== Sys2Proof/Laws/Quiet.lean ====
section
/-!
SUPPORT. What each transfer primitive does when no access fails and nothing intervenes: it plays a fixed list of events
and leaves the latch at a fixed value (R130 to R135, R137).
-/

namespace Sys2Proof.Machine

/-- The state after the activity in flight has played `es` and left the latch at `pb`. -/
def played (es : List Event) (pb : Byte) (s : State) : State :=
  { s with pb := pb, trace := s.trace ++ es, seq := Seq.advance^[es.length] s.seq }

@[simp] theorem played_cfg (es : List Event) (pb : Byte) (s : State) : (played es pb s).cfg = s.cfg := rfl
@[simp] theorem played_addr (es : List Event) (pb : Byte) (s : State) : (played es pb s).addr = s.addr := rfl
@[simp] theorem played_row (es : List Event) (pb : Byte) (s : State) : (played es pb s).row = s.row := rfl
@[simp] theorem played_em (es : List Event) (pb : Byte) (s : State) : (played es pb s).em = s.em := rfl
@[simp] theorem played_fs (es : List Event) (pb : Byte) (s : State) : (played es pb s).fs = s.fs := rfl
@[simp] theorem played_dc (es : List Event) (pb : Byte) (s : State) : (played es pb s).dc = s.dc := rfl
@[simp] theorem played_pb (es : List Event) (pb : Byte) (s : State) : (played es pb s).pb = pb := rfl
@[simp] theorem played_weave (es : List Event) (pb : Byte) (s : State) : (played es pb s).weave = s.weave := rfl
@[simp] theorem played_devOpen (es : List Event) (pb : Byte) (s : State) : (played es pb s).devOpen = s.devOpen := rfl
@[simp] theorem played_halted (es : List Event) (pb : Byte) (s : State) : (played es pb s).halted = s.halted := rfl
@[simp] theorem played_issuer (es : List Event) (pb : Byte) (s : State) : (played es pb s).issuer = s.issuer := rfl
@[simp] theorem played_trace (es : List Event) (pb : Byte) (s : State) :
    (played es pb s).trace = s.trace ++ es := rfl
@[simp] theorem played_displayOn (es : List Event) (pb : Byte) (s : State) :
    (played es pb s).displayOn = s.displayOn := rfl
@[simp] theorem played_backlightOn (es : List Event) (pb : Byte) (s : State) :
    (played es pb s).backlightOn = s.backlightOn := rfl
@[simp] theorem played_timeoutActive (es : List Event) (pb : Byte) (s : State) :
    (played es pb s).timeoutActive = s.timeoutActive := rfl
@[simp] theorem played_expBusy (es : List Event) (pb : Byte) (s : State) :
    (played es pb s).expBusy = s.expBusy := rfl

theorem iterate_advance_idle (n : Nat) : Seq.advance^[n] .idle = .idle := by
  induction n with
  | zero => rfl
  | succ n ih => rw [Function.iterate_succ_apply]; exact ih

theorem iterate_advance_busy (a : Agent) (op : OpName) (m n : Nat) :
    Seq.advance^[n] (.busy a op m) = .busy a op (m + n) := by
  induction n generalizing m with
  | zero => rfl
  | succ n ih =>
    rw [Function.iterate_succ_apply, Seq.advance, ih]
    congr 1
    omega

@[simp] theorem played_played (es es' : List Event) (pb pb' : Byte) (s : State) :
    played es' pb' (played es pb s) = played (es ++ es') pb' s := by
  simp only [played, List.length_append, List.append_assoc, Nat.add_comm es.length, Function.iterate_add_apply]

theorem quiet_played {s : State} (h : Quiet s) (es : List Event) (pb : Byte) : Quiet (played es pb s) := h

theorem popSlot_quiet {s : State} (h : s.weave = []) : popSlot s = s := by
  cases s
  simp only [popSlot] at h ⊢
  subst h
  rfl

theorem nextSlot_quiet {s : State} (h : s.weave = []) : nextSlot s = ⟨false, []⟩ := by simp [nextSlot, h]

/-- One event in a quiet schedule. -/
theorem ownEvent_quiet {s : State} (h : s.weave = []) (e : Event) : ownEvent e s = .ok (played [e] s.pb s) := by
  simp only [ownEvent, nextSlot_quiet h, popSlot_quiet h, weaveActs]
  rfl

theorem delay_quiet {s : State} (h : Quiet s) (t : Wait) : delay t s = .ok (played [.dly t] s.pb s) :=
  ownEvent_quiet h.2 _

/-- One register access in a quiet schedule. -/
theorem access_quiet {s : State} (h : Quiet s) (e : Event) (pb' : Byte) : access e pb' s = .ok (played [e] pb' s) := by
  rw [access, if_pos h.1, nextSlot_quiet h.2, if_neg Bool.false_ne_true]
  exact ownEvent_quiet (s := { s with pb := pb' }) h.2 e

theorem bitWrite_quiet {s : State} (h : Quiet s) (i : Nat) (b : Bool) :
    bitWrite i b s = .ok (played [.bw .pb i b] (setBit s.pb i b) s) := access_quiet h _ _

theorem readPb_quiet {s : State} (h : Quiet s) : readPb s = .ok (played [.rd .pb s.pb] s.pb s) := access_quiet h _ _

theorem writePb_quiet {s : State} (h : Quiet s) (v : Byte) : writePb v s = .ok (played [.wr .pb v] v s) :=
  access_quiet h _ _

/-- R131. -/
theorem pulseEnable_quiet {s : State} (h : Quiet s) :
    pulseEnable s = .ok (played (pulseEvents s.cfg) (pulsedPb s.cfg s.pb) s) := by
  simp only [pulseEnable, bitWrite_quiet h, bind_ok, played_cfg, delay_quiet (quiet_played h _ _),
    bitWrite_quiet (quiet_played h _ _), played_played, played_pb]
  rfl

/-- R132. -/
theorem sendNibble_quiet {s : State} (h : Quiet s) (n : Nibble) :
    sendNibble n s = .ok (played (nibbleEvents s.cfg n s.pb) (nibblePb s.cfg n s.pb) s) := by
  simp only [sendNibble, readPb_quiet h, bind_ok, writePb_quiet (quiet_played h _ _),
    pulseEnable_quiet (quiet_played h _ _), played_played, played_pb, played_cfg]
  rfl

/-- R133. -/
theorem sendByte_quiet {s : State} (h : Quiet s) (v : Byte) :
    sendByte v s = .ok (played (byteEvents s.cfg v s.pb) (bytePb s.cfg v s.pb) s) := by
  simp only [sendByte, sendNibble_quiet h, bind_ok, sendNibble_quiet (quiet_played h _ _), played_played, played_pb,
    played_cfg]
  rfl

/-- R134, R135. -/
theorem sendBus_quiet {s : State} (h : Quiet s) (rs : Bool) (v : Byte) :
    sendBus rs v s = .ok (played (busEvents s.cfg rs v s.pb) (busPb s.cfg rs v s.pb) s) := by
  simp only [sendBus, setRs, bitWrite_quiet h, bind_ok, sendByte_quiet (quiet_played h _ _),
    delay_quiet (quiet_played h _ _), played_played, played_pb, played_cfg]
  rfl

theorem sendCommand_quiet {s : State} (h : Quiet s) (v : Byte) :
    sendCommand v s = .ok (played (busEvents s.cfg false v s.pb) (busPb s.cfg false v s.pb) s) := sendBus_quiet h _ _

theorem sendData_quiet {s : State} (h : Quiet s) (v : Byte) :
    sendData v s = .ok (played (busEvents s.cfg true v s.pb) (busPb s.cfg true v s.pb) s) := sendBus_quiet h _ _

/-- R164, R165. -/
theorem sendSlowCommand_quiet {s : State} (h : Quiet s) (v : Byte) :
    sendSlowCommand v s =
      .ok (played (busEvents s.cfg false v s.pb ++ [.dly .clear]) (busPb s.cfg false v s.pb) s) := by
  simp only [sendSlowCommand, sendCommand_quiet h, bind_ok, delay_quiet (quiet_played h _ _), played_played, played_pb]

/-- A host LCD-touching operation that may start: its body runs with the sequencer taken, then it answers. -/
theorem lcdOp_ready {s : State} (h : Ready s) (op : OpName) (body : State → Except Stop State) (result : State → Byte) :
    lcdOp op body result s =
      conclude (do
        let t ← body { s with seq := .busy (agentOf s.issuer) op 0 }
        return finishOp (result t) t) := by
  simp only [lcdOp, accept_live h.1, bind_ok, startOp, startLcd_idle h.2.1]

end Sys2Proof.Machine
end

