-- ==== Sys2Proof/Laws/QuietBodies.lean ====
section
/-!
SUPPORT. In a quiet schedule: how an operation that may start answers, and where the parts that several operations share
end (R180, R187, R188, R200, R240, R241).
-/

namespace Sys2Proof.Machine

/-- An operation that may start: if its body, run with the sequencer taken, ends in `t`, it answers from `t` with the
sequencer free. -/
theorem lcdOp_answers {s t u : State} {op : OpName} {body : State → Except Stop State} {result : State → Byte} {v : Byte}
    (h : Ready s) (hb : body { s with seq := .busy (agentOf s.issuer) op 0 } = .ok t) (hv : result t = v)
    (hu : respond t.issuer (.ok v) { t with seq := .idle } = u) : lcdOp op body result s = .next u := by
  rw [lcdOp_ready h, hb]
  simp only [bind_ok, conclude, pure, Except.pure, finishOp, hv, hu]

/-- SDISP or SBL with a hardware step to do. -/
theorem switchOp_answers {s t u : State} {op : OpName} {good touching : Bool} {body : State → Except Stop State}
    (h : Ready s) (hg : good = true) (ht : touching = true)
    (hb : body { s with seq := .busy (agentOf s.issuer) op 0 } = .ok t)
    (hu : respond t.issuer (.ok 0) { t with seq := .idle } = u) : switchOp op good touching body s = .next u := by
  subst hg ht
  simp only [switchOp, accept_live h.1, bind_ok, demand, if_true, startOp, startLcd_idle h.2.1, hb, conclude, pure,
    Except.pure, finishOp, hu]

/-- SDISP or SBL with nothing to do: answered, whatever the device and the sequencer. -/
theorem switchOp_noop {s : State} {op : OpName} {good touching : Bool} {body : State → Except Stop State}
    (h : s.halted = false) (hg : good = true) (ht : touching = false) :
    switchOp op good touching body s = .next { s with trace := s.trace ++ [.resp s.issuer (.ok 0)] } := by
  subst hg ht
  simp only [switchOp, accept_live h, bind_ok, demand, if_true, conclude, pure, Except.pure, Bool.false_eq_true, if_false]
  rfl

/-- R180 on `DC`. -/
theorem dcBody_quiet {s : State} (h : Quiet s) (mask : Byte) (on : Bool) :
    dcBody mask on s = .ok (played (busEvents s.cfg false (s.cfg.cmdDispCtrl ||| putFlag s.dc mask on) s.pb)
      (busPb s.cfg false (s.cfg.cmdDispCtrl ||| putFlag s.dc mask on) s.pb) (flagDc mask on s)) := by
  simp only [dcBody]
  rw [sendCommand_quiet (by exact h)]
  rfl

/-- R180 on `EM`. -/
theorem emBody_quiet {s : State} (h : Quiet s) (mask : Byte) (on : Bool) :
    emBody mask on s = .ok (played (busEvents s.cfg false (s.cfg.cmdEntryMode ||| putFlag s.em mask on) s.pb)
      (busPb s.cfg false (s.cfg.cmdEntryMode ||| putFlag s.em mask on) s.pb) (flagEm mask on s)) := by
  simp only [emBody]
  rw [sendCommand_quiet (by exact h)]
  rfl

/-- R187, R188. -/
theorem backlightBody_quiet {s : State} (h : Quiet s) (on : Bool) :
    backlightBody on s = .ok (played [.bw .pb s.cfg.pinBl on] (setBit s.pb s.cfg.pinBl on) s) := bitWrite_quiet h _ _

/-- R200: streamed data bytes. -/
theorem sendRows_quiet (rows : List Byte) {s : State} (h : Quiet s) :
    sendRows rows s = .ok (played (busesEvents s.cfg (rows.map fun d => (true, d)) s.pb)
      (busesPb s.cfg (rows.map fun d => (true, d)) s.pb) s) := by
  induction rows generalizing s with
  | nil => simp [sendRows, played, busesPb, busesEvents]
  | cons d rest ih =>
    simp only [sendRows, sendData_quiet h, bind_ok, ih (quiet_played h _ _), played_played, played_pb, played_cfg,
      List.map_cons, busesEvents, busesPb]

end Sys2Proof.Machine
end

