-- ==== Sys2Proof/Laws/Session.lean ====
section
/-!
SUPPORT. What the switch-off part of SDISP and EXPIRE leaves in the session's flags (R240, R244, R246 a), whatever is woven
into it.
-/

namespace Sys2Proof.Machine

/-- The session's power flags. -/
abbrev PowerFlags (display backlight : Bool) (s : State) : Prop := s.displayOn = display ∧ s.backlightOn = backlight

/-- Nothing but the session's own writes moves its power flags, whatever the schedule weaves in. -/
theorem powerFlags_woven (display backlight : Bool) :
    Woven (fun _ => true) (PowerFlags display backlight) (fun _ => True) where
  tested _ _ := by simp [weaveAll]
  event _ _ h := h
  latch _ _ h := h
  step a s _ h := by
    cases hr : act a s with
    | error e => exact trivial
    | ok t =>
      have hb := act_ok_bystander hr
      simp only [Ends]
      split
      · trivial
      · exact ⟨hb.displayOn.trans h.1, hb.backlightOn.trans h.2⟩
  failed _ _ _ := trivial
  closed _ _ _ := trivial

/-- R240: the light goes off if it was on, and the flag follows. -/
theorem backlightOffBody_off {s : State} {display : Bool} (hd : s.displayOn = display) :
    Ends (PowerFlags display false) (fun _ => True) (backlightOffBody s) := by
  unfold backlightOffBody
  split
  · next hb => exact (backlightBody_ends (powerFlags_woven display true) false ⟨hd, hb⟩).bind fun t h => ⟨h.1, rfl⟩
  · next hb => exact ⟨hd, by simpa using hb⟩

/-- R246 a, as far as R240's pseudocode gives it: a switch-off that completes leaves the display off, and the backlight too
unless the session already held the display off with the light on. -/
theorem displayOffBody_off {s : State} (h : s.displayOn = true ∨ s.backlightOn = false) :
    Ends (PowerFlags false false) (fun _ => True) (displayOffBody s) := by
  unfold displayOffBody
  split
  · next hd =>
    exact (dcBody_ends (powerFlags_woven true s.backlightOn) ⟨hd, rfl⟩).bind fun t _ => backlightOffBody_off rfl
  · next hd => exact ⟨by simpa using hd, h.resolve_left hd⟩

/-- R240: in the one case left, nothing happens at all. -/
theorem displayOffBody_idle {s : State} (h : s.displayOn = false) : displayOffBody s = .ok s := by
  rw [displayOffBody, h]
  rfl

end Sys2Proof.Machine
end

