-- ==== Sys2Proof/Machine/Aliases.lean ====
section
/-!
DEFINITION. The source's procedure names as aliases (spec/30_encoding.md rule R98), each with its expansion into
operations, and the splitting of texts that do not fit one packet.
-/

namespace Sys2Proof.Machine

/-- R98, column "source spelling". -/
inductive Call where
  | write (text : List Byte)
  | writeTimeout (text : List Byte) (ms : Word32)
  | driverWrite (text : List Byte)
  | clear
  | home
  | toggleDisplay (on : Bool)
  | toggleBacklight (on : Bool)
  | cursor (on : Bool)
  | blink (on : Bool)
  | autoscroll (on : Bool)
  | leftToRight (on : Bool)
  | setCursor (col row : Int)
  | storeCustomBitmap (location : Byte) (bytes : Glyph)
  | writeCustomBitmap (location : Byte)
  | registerSingle (button handler : Byte)
  | registerCombo (buttons : List Byte) (handler : Byte)
  | setPollInterval (ms : Word32)
  deriving DecidableEq, Repr

/-- R91: the longest text of one packet. -/
def maxText : Nat := 65535

/-- R98: a text cut into pieces of at most `maxText` bytes, `fuel` cuts at most; a text that fits is one piece. -/
def pieces : Nat → List Byte → List (List Byte)
  | 0, text => [text]
  | fuel + 1, text =>
    if text.length ≤ maxText then [text] else text.take maxText :: pieces fuel (text.drop maxText)

/-- R98: the pieces of a text, the last one apart. -/
def splitText (text : List Byte) : List (List Byte) × List Byte :=
  let ps := pieces text.length text
  (ps.dropLast, ps.getLastD [])

/-- The byte 1 or 0 of a state operand (R92 e). -/
def stateByte (on : Bool) : Byte := if on then 1 else 0

/-- R98, column "expansion". A long text is several writes of the same kind, and of a timed one only the last piece starts
the timer, which DEDUCED from R98 is the reading whose timer runs from the end of the text; safe, no step depends on it,
notes/assumptions/22.md. -/
def expand : Call → List Instr
  | .write text => (splitText text).1.map .swrite ++ [.swrite (splitText text).2]
  | .writeTimeout text ms => (splitText text).1.map .swrite ++ [.swritet (splitText text).2 ms]
  | .driverWrite text => (splitText text).1.map .write ++ [.write (splitText text).2]
  | .clear => [.clear]
  | .home => [.home]
  | .toggleDisplay on => [.sdisp (stateByte on)]
  | .toggleBacklight on => [.sbl (stateByte on)]
  | .cursor on => [if on then .curon else .curoff]
  | .blink on => [if on then .blinkon else .blinkoff]
  | .autoscroll on => [if on then .ascron else .ascroff]
  | .leftToRight on => [if on then .ltr else .rtl]
  | .setCursor col row => [.setcur col row]
  | .storeCustomBitmap location bytes => [.storeg location bytes]
  | .writeCustomBitmap location => [.writeg location]
  | .registerSingle button handler => [.regs button handler]
  | .registerCombo buttons handler => [.regc handler buttons]
  | .setPollInterval ms => [.setint ms]

end Sys2Proof.Machine
end

