-- ==== Sys2Proof/Machine/Assembler.lean ====
section
/-!
DEFINITION. The assembler syntax of the spec's examples (spec/30_encoding.md rule R97), read line by line from ASCII
codes: mnemonic, operands separated by commas, comments from a semicolon, and the asynchronous events of a listing.
-/

namespace Sys2Proof.Machine

/-- What a line of a listing stands for. -/
inductive Line where
  | blank
  | op (i : Instr)
  | tick (sw : Byte)
  | expire
  | hret (ok : Bool)
  deriving DecidableEq, Repr

/-- A line as ASCII codes. -/
abbrev Codes := List Nat

/-- The codes of a literal. -/
def codes (s : String) : Codes := s.toList.map Char.toNat

/-- Space or tab. -/
def isBlank (c : Nat) : Bool := c == 32 || c == 9

/-- Blanks off both ends. -/
def trim (l : Codes) : Codes := ((l.dropWhile isBlank).reverse.dropWhile isBlank).reverse

/-- The codes up to a comment's semicolon (59) that stands outside double quotes (34); a backslash (92) inside quotes
takes the next code with it. -/
def dropComment : Bool → Codes → Codes
  | _, [] => []
  | true, 92 :: c :: rest => 92 :: c :: dropComment true rest
  | quoted, 34 :: rest => 34 :: dropComment (!quoted) rest
  | false, 59 :: _ => []
  | quoted, c :: rest => c :: dropComment quoted rest

/-- The first of a list of parts takes one more code in front. -/
def onFirst (pre : Codes) : List Codes → List Codes
  | [] => [pre]
  | part :: rest => (pre ++ part) :: rest

/-- The operands: cut at the commas (44) outside double quotes and outside square brackets (91, 93). -/
def cutCommas : Bool → Bool → Codes → List Codes
  | _, _, [] => [[]]
  | true, inside, 92 :: c :: rest => onFirst [92, c] (cutCommas true inside rest)
  | quoted, inside, 34 :: rest => onFirst [34] (cutCommas (!quoted) inside rest)
  | false, _, 91 :: rest => onFirst [91] (cutCommas false true rest)
  | false, _, 93 :: rest => onFirst [93] (cutCommas false false rest)
  | false, false, 44 :: rest => [] :: cutCommas false false rest
  | quoted, inside, c :: rest => onFirst [c] (cutCommas quoted inside rest)

/-! ### Operands -/

/-- The value of a hexadecimal digit. -/
def digit (c : Nat) : Option Nat :=
  if 48 ≤ c ∧ c ≤ 57 then some (c - 48)
  else if 65 ≤ c ∧ c ≤ 70 then some (c - 55)
  else if 97 ≤ c ∧ c ≤ 102 then some (c - 87)
  else none

/-- Digits in a base, after a value already read. -/
def readDigits (base : Nat) : Nat → Codes → Option Nat
  | n, [] => some n
  | n, c :: rest =>
    match digit c with
    | some d => if d < base then readDigits base (base * n + d) rest else none
    | none => none

/-- R97: a number, decimal or `0x` hexadecimal. -/
def number : Codes → Option Nat
  | [] => none
  | 48 :: 120 :: c :: rest => readDigits 16 0 (c :: rest)
  | c :: rest => readDigits 10 0 (c :: rest)

/-- A number below a bound. -/
def numberBelow (bound : Nat) (l : Codes) : Option Nat :=
  match number l with
  | some n => if n < bound then some n else none
  | none => none

/-- A one-byte operand. -/
def byteOperand (l : Codes) : Option Byte := (numberBelow 256 l).map (BitVec.ofNat 8)

/-- A u32 operand. -/
def wordOperand (l : Codes) : Option Word32 := (numberBelow (2 ^ 32) l).map (BitVec.ofNat 32)

/-- R92 a, R97: SETCUR's operands may carry a minus sign (45); what no signed byte carries has no packet. -/
def signedOperand : Codes → Option Int
  | 45 :: rest => (numberBelow 129 rest).map (fun n => -(n : Int))
  | l => (numberBelow 128 l).map (fun n => (n : Int))

/-- R97: a handler operand `h=<number>`. -/
def handlerOperand : Codes → Option Byte
  | 104 :: 61 :: rest => byteOperand rest
  | _ => none

/-- R97: `on` or `off`. -/
def stateOperand (l : Codes) : Option Byte :=
  if l = codes "on" then some 1 else if l = codes "off" then some 0 else none

/-- R97: the text after its opening quote, with its four escapes; a character is its ASCII code, one byte (R98 and
93 U30 refuse wider ones). -/
def textBody (newline : Byte) : Codes → Option (List Byte)
  | [34] => some []
  | 92 :: 110 :: rest => (textBody newline rest).map (newline :: ·)
  | 92 :: 92 :: rest => (textBody newline rest).map (92 :: ·)
  | 92 :: 34 :: rest => (textBody newline rest).map (34 :: ·)
  | 92 :: 120 :: hi :: lo :: rest =>
    match digit hi, digit lo with
    | some a, some b => (textBody newline rest).map (BitVec.ofNat 8 (16 * a + b) :: ·)
    | _, _ => none
  | c :: rest =>
    if c = 34 ∨ c = 92 ∨ 128 ≤ c then none else (textBody newline rest).map (BitVec.ofNat 8 c :: ·)
  | [] => none

/-- R97: text in double quotes. -/
def textOperand (newline : Byte) : Codes → Option (List Byte)
  | 34 :: rest => textBody newline rest
  | _ => none

/-- Every part read, or none. -/
def readAll : List Codes → Option (List Byte)
  | [] => some []
  | part :: rest =>
    match byteOperand (trim part), readAll rest with
    | some b, some bs => some (b :: bs)
    | _, _ => none

/-- R97: a list in square brackets. -/
def listOperand : Codes → Option (List Byte)
  | 91 :: rest =>
    match rest.reverse with
    | 93 :: body =>
      if (trim body).isEmpty then some [] else readAll (cutCommas false false body.reverse)
    | _ => none
  | _ => none

/-- The eight rows of a glyph. -/
def glyphOperand (l : Codes) : Option Glyph :=
  match listOperand l with
  | some [r0, r1, r2, r3, r4, r5, r6, r7] => some ⟨r0, r1, r2, r3, r4, r5, r6, r7⟩
  | _ => none

/-! ### Lines -/

/-- The operations without an operand. -/
def bareOp (m : Codes) : Option Instr :=
  if m = codes "INIT" then some .init
  else if m = codes "CLEAR" then some .clear
  else if m = codes "HOME" then some .home
  else if m = codes "DISPON" then some .dispon
  else if m = codes "DISPOFF" then some .dispoff
  else if m = codes "CURON" then some .curon
  else if m = codes "CUROFF" then some .curoff
  else if m = codes "BLINKON" then some .blinkon
  else if m = codes "BLINKOFF" then some .blinkoff
  else if m = codes "BLON" then some .blon
  else if m = codes "BLOFF" then some .bloff
  else if m = codes "ASCRON" then some .ascron
  else if m = codes "ASCROFF" then some .ascroff
  else if m = codes "LTR" then some .ltr
  else if m = codes "RTL" then some .rtl
  else if m = codes "POLLSTART" then some .pollstart
  else if m = codes "POLLSTOP" then some .pollstop
  else none

/-- The operations with one operand. -/
def oneOp (newline : Byte) (m a : Codes) : Option Instr :=
  if m = codes "WRITE" then (textOperand newline a).map .write
  else if m = codes "WRITEG" then (byteOperand a).map .writeg
  else if m = codes "SETINT" then (wordOperand a).map .setint
  else if m = codes "SWRITE" then (textOperand newline a).map .swrite
  else if m = codes "SDISP" then (stateOperand a).map .sdisp
  else if m = codes "SBL" then (stateOperand a).map .sbl
  else none

/-- Two operands read, or none. -/
def both {α β : Type} (f : α → β → Instr) (a : Option α) (b : Option β) : Option Instr :=
  match a, b with
  | some x, some y => some (f x y)
  | _, _ => none

/-- The operations with two operands. -/
def twoOp (newline : Byte) (m a b : Codes) : Option Instr :=
  if m = codes "SETCUR" then both .setcur (signedOperand a) (signedOperand b)
  else if m = codes "STOREG" then both .storeg (byteOperand a) (glyphOperand b)
  else if m = codes "REGS" then both .regs (byteOperand a) (handlerOperand b)
  else if m = codes "REGC" then both .regc (handlerOperand a) (listOperand b)
  else if m = codes "SWRITET" then both .swritet (textOperand newline a) (wordOperand b)
  else none

/-- An operation that a packet can carry. -/
def packed (i : Option Instr) : Option Line :=
  match i with
  | some i => if i.WellFormed then some (.op i) else none
  | none => none

/-- R97: the asynchronous events of a listing. -/
def eventLine (m a : Codes) : Option Line :=
  if m = codes "@EXPIRE" then if a = [] then some .expire else none
  else if m = codes "@HRET" then
    if a = codes "ok" then some (.hret true) else if a = codes "fail" then some (.hret false) else none
  else if m = codes "@TICK" then
    if a.take 3 = codes "sw=" then (byteOperand (a.drop 3)).map .tick else none
  else none

/-- R97: one line; `none` where it is no line of the syntax. -/
def assembleCodes (newline : Byte) (line : Codes) : Option Line :=
  let l := trim (dropComment false line)
  let m := l.takeWhile (fun c => !isBlank c)
  let rest := trim (l.dropWhile (fun c => !isBlank c))
  if l = [] then some .blank
  else if l.head? = some 64 then eventLine m rest
  else if rest = [] then packed (bareOp m)
  else
    match (cutCommas false false rest).map trim with
    | [a] => packed (oneOp newline m a)
    | [a, b] => packed (twoOp newline m a b)
    | _ => none

/-- R97: one line of a listing, its escape `\n` being the parameter `NEWLINE`. -/
def assemble (newline : Byte) (line : String) : Option Line := assembleCodes newline (codes line)

end Sys2Proof.Machine
end

