-- ==== Sys2Proof/Tests/Slice0.lean ====
section
/-!
SUPPORT. The model's own tests. Expected values are those of spec/95_test_vectors.md, whose id each test names, or are
read off the rule it names. The last part holds a witness for the hypotheses of every obligation that has any.
-/

namespace Sys2Proof.Tests

open Sys2Proof.Machine Sys2Proof.Claims

/-! ### Helpers -/

/-- `S0` of the vectors: after reset, the device opened. -/
def s0 : State := { State.reset with devOpen := true }

/-- `S1` of the vectors: `S0` after one INIT, its values as the vectors list them. -/
def s1 : State := { s0 with fs := 0x08, em := 0x02, pb := 0x01, initDone := true }

/-- What a next state shows, `none` where there is none. -/
def seen {α : Type} (view : State → α) (o : Host.Outcome State Fault Refusal) : Option α :=
  match o with
  | .next t => some (view t)
  | _ => none

/-- The bus bytes and the number of port events of a run from an empty trace, then the response. -/
def busView (pb : Byte) (t : State) : List (Bool × Byte) × Nat × List Event :=
  (busBytes t.cfg pb t.trace, count isLcdEvent t.trace, t.trace.filter (fun e => !isLcdEvent e))

/-- `ADDR`, `ROW`, `PB`. -/
def cursorView (t : State) : List Byte := [t.addr, t.row, t.pb]

/-- `DC`, `EM`, `PB`. -/
def flagView (t : State) : List Byte := [t.dc, t.em, t.pb]

/-- `DISPLAY_ON`, `BACKLIGHT_ON`, `TIMEOUT_ACTIVE`. -/
def sessionView (t : State) : List Bool := [t.displayOn, t.backlightOn, t.timeoutActive]

/-- `s` with one turn to take. -/
def due (a : Act) (w : List Slot) (s : State) : State := { s with agenda := [⟨a, w⟩] }

/-- One packet from the application, undisturbed. -/
def deliver (bytes : List Byte) (s : State) : Host.Outcome State Fault Refusal := step (due (.packet .app bytes) [] s)

/-- `OK`, `REFUSED` and `FAULT` to the application. -/
def ok (v : Byte) : List Event := [.resp .app (.ok v)]
def refused (r : Reason) : List Event := [.resp .app (.refused r)]
def faulted (f : FaultCode) : List Event := [.resp .app (.fault f)]

/-- The glyph of V-GLY-1. -/
def heart : Glyph := ⟨0x00, 0x0A, 0x1F, 0x1F, 0x0E, 0x04, 0x00, 0x00⟩

/-! ### WellFormed: each check refuses an ill-formed term -/

theorem test_wf_setcur_col : (Instr.setcur 128 0).WellFormed = false := by decide
theorem test_wf_setcur_row : (Instr.setcur 0 (-129)).WellFormed = false := by decide
theorem test_wf_setcur_bounds : (Instr.setcur (-128) 127).WellFormed = true := by decide
theorem test_wf_write : (Instr.write (List.replicate 65536 0)).WellFormed = false := by
  simp only [Instr.WellFormed, fitsLength16, List.length_replicate]; decide
theorem test_wf_write_bound : (Instr.write (List.replicate 65535 0)).WellFormed = true := by
  simp only [Instr.WellFormed, fitsLength16, List.length_replicate]; decide
theorem test_wf_swrite : (Instr.swrite (List.replicate 65536 0)).WellFormed = false := by
  simp only [Instr.WellFormed, fitsLength16, List.length_replicate]; decide
theorem test_wf_swritet : (Instr.swritet (List.replicate 65536 0) 0).WellFormed = false := by
  simp only [Instr.WellFormed, fitsLength16, List.length_replicate]; decide
theorem test_wf_regc : (Instr.regc 0 (List.replicate 256 0)).WellFormed = false := by
  simp only [Instr.WellFormed, fitsCount8, List.length_replicate]; decide
theorem test_wf_regc_bound : (Instr.regc 0 (List.replicate 255 0)).WellFormed = true := by
  simp only [Instr.WellFormed, fitsCount8, List.length_replicate]; decide

/-! ### Decode: every constructor from a packet written out bit by bit (R91, R93) -/

theorem test_decode_init : decode [0b00000001] = .ok .init := by decide
theorem test_decode_write : decode [0b00010000, 0b00000010, 0b00000000, 0b01000001, 0b01000010] =
    .ok (.write [0x41, 0x42]) := by decide
theorem test_decode_setcur : decode [0b00010001, 0b11111111, 0b00000101] = .ok (.setcur (-1) 5) := by decide
theorem test_decode_clear : decode [0b00010010] = .ok .clear := by decide
theorem test_decode_home : decode [0b00010011] = .ok .home := by decide
theorem test_decode_dispon : decode [0b00100000] = .ok .dispon := by decide
theorem test_decode_dispoff : decode [0b00100001] = .ok .dispoff := by decide
theorem test_decode_curon : decode [0b00100010] = .ok .curon := by decide
theorem test_decode_curoff : decode [0b00100011] = .ok .curoff := by decide
theorem test_decode_blinkon : decode [0b00100100] = .ok .blinkon := by decide
theorem test_decode_blinkoff : decode [0b00100101] = .ok .blinkoff := by decide
theorem test_decode_blon : decode [0b00100110] = .ok .blon := by decide
theorem test_decode_bloff : decode [0b00100111] = .ok .bloff := by decide
theorem test_decode_ascron : decode [0b00101000] = .ok .ascron := by decide
theorem test_decode_ascroff : decode [0b00101001] = .ok .ascroff := by decide
theorem test_decode_ltr : decode [0b00101010] = .ok .ltr := by decide
theorem test_decode_rtl : decode [0b00101011] = .ok .rtl := by decide
theorem test_decode_storeg :
    decode [0b00110000, 0b00001001, 0b00000000, 0b00001010, 0b00011111, 0b00011111, 0b00001110, 0b00000100,
      0b00000000, 0b00000000] = .ok (.storeg 9 heart) := by decide
theorem test_decode_writeg : decode [0b00110001, 0b00000111] = .ok (.writeg 7) := by decide
theorem test_decode_regs : decode [0b01000000, 0b00000010, 0b00010001] = .ok (.regs 2 0x11) := by decide
theorem test_decode_regc : decode [0b01000001, 0b00110011, 0b00000010, 0b00000001, 0b00000010] =
    .ok (.regc 0x33 [1, 2]) := by decide
theorem test_decode_setint : decode [0b01000010, 0b11101000, 0b00000011, 0b00000001, 0b00000000] =
    .ok (.setint 66536) := by decide
theorem test_decode_pollstart : decode [0b01000011] = .ok .pollstart := by decide
theorem test_decode_pollstop : decode [0b01000100] = .ok .pollstop := by decide
theorem test_decode_swrite : decode [0b01010000, 0b00000001, 0b00000000, 0b01011000] = .ok (.swrite [0x58]) := by decide
theorem test_decode_swritet :
    decode [0b01010001, 0b00000001, 0b00000000, 0b11101000, 0b00000011, 0b00000000, 0b00000000, 0b01000001] =
      .ok (.swritet [0x41] 1000) := by decide
theorem test_decode_sdisp : decode [0b01010010, 0b00000001] = .ok (.sdisp 1) := by decide
theorem test_decode_sbl : decode [0b01010011, 0b00000000] = .ok (.sbl 0) := by decide

/-- A length above 255: byte 2 weighs 256 (R91). -/
theorem test_decode_long_text : decode (0x10 :: 0x01 :: 0x01 :: List.replicate 257 0x41) =
    .ok (.write (List.replicate 257 0x41)) := by decide +kernel

/-- V-ENC-1 to V-ENC-4: the first value of each illegal range of R94, and the empty packet. -/
theorem test_bad_opcodes : ([0x00, 0x02, 0x0F, 0x14, 0x2C, 0x32, 0x45, 0x54, 0xFF] : List Byte).all
    (fun op => decide (decode [op] = .error .badOpcode)) = true := by decide
theorem test_empty_packet : decode [] = .error .badLength := by decide

/-- V-ENC-5 to V-ENC-10. -/
theorem test_bad_lengths : ([[0x12, 0x00], [0x11, 0x05], [0x10, 0x02, 0x00, 0x41], [0x10, 0x02],
    [0x41, 0x33, 0x03, 0x01, 0x02], [0x51, 0x01, 0x00, 0x32, 0x00, 0x00, 0x00]] : List (List Byte)).all
    (fun p => decide (decode p = .error .badLength)) = true := by decide

/-- The table's word of a packet: byte 1 is bits 15..8. -/
theorem test_table_word : decodeTableWord 24 0x051140 = some (.regs 0x11 5) := by decide
theorem test_table_word_open_length : decodeTableWord 24 0x10 = some (.write []) := by decide

/-! ### Refusals -/

/-- V-ENC-1, V-ENC-5, V-ENC-11. -/
theorem test_refusals :
    seen State.trace (deliver [0x00] s1) = some (refused .badOpcode) ∧
      seen State.trace (deliver [0x12, 0x00] s1) = some (refused .badLength) ∧
      seen State.trace (deliver [0x40, 0x00, 0x11] s1) = some (refused .badOperand) := by decide

/-- V-ENC-17: Halted is tested first, and a refusal writes no fault. -/
theorem test_halted_first :
    seen (fun t => (t.trace, t.fault)) (deliver [] { s1 with halted := true }) = some (refused .halted, none) := by decide

/-! ### Transfer -/

/-- V-P1: INIT's events 19 to 32, counts, latched nibbles and end state. -/
theorem test_init :
    seen (fun t => (t.fs, t.dc, t.em, t.addr, t.row, t.pb)) (deliver [0x01] s0) =
      some (0x08, 0x00, 0x02, 0, 0, 0x01) ∧
    seen (fun t => (t.trace.length, latched t.cfg 0x00 t.trace)) (deliver [0x01] s0) =
      some (90, [(false, 0x3), (false, 0x3), (false, 0x3), (false, 0x2), (false, 0x2), (false, 0x8), (false, 0x0),
        (false, 0x8), (false, 0x0), (false, 0x6), (false, 0x0), (false, 0x1)]) := by decide +kernel

theorem test_init_events :
    seen (fun t => ((t.trace.drop 17).take 15, leastDuration t.cfg t.trace)) (deliver [0x01] s0) =
      some ([.dly .setup2, .rd .pb 0x03, .wr .pb 0x03, .bw .pb 4 true, .dly .pulse, .bw .pb 4 false, .dly .pulse,
        .dly .settle, .rd .pb 0x03, .wr .pb 0x02, .bw .pb 4 true, .dly .pulse, .bw .pb 4 false, .dly .pulse,
        .dly .settle], 23944) := by decide +kernel

/-- R77 and R137's example: of a trace from reset, INIT's raw nibbles are no bus bytes. -/
theorem test_bytes_from_reset :
    seen (fun t => bytesFromReset t.cfg 0x00 t.trace) (deliver [0x01] s0) =
      some [(false, 0x28), (false, 0x08), (false, 0x06), (false, 0x01)] := by decide +kernel

/-- R305: after half a byte the next one is split wrongly, until an INIT restarts the pairing. -/
theorem test_misframed_until_init :
    watchBytes s1.cfg ⟨.paired (some (true, 0x4)), 0x44⟩ (busEvents s1.cfg false 0x01 0x44) = [(true, 0x40)] ∧
      watchBytes s1.cfg ⟨.paired (some (true, 0x4)), 0x44⟩ (initEvents s1.cfg 0x44) =
        [(false, 0x28), (false, 0x08), (false, 0x06), (false, 0x01)] := by decide +kernel

/-- Log entry 25: after an INIT that stops at its first setup delay no bus byte is recovered, until a whole INIT. -/
theorem test_stopped_init_unframes :
    busBytes s1.cfg 0x01 ([.bw .pb 6 false, .dly .setup0] ++ busEvents s1.cfg false 0x01 0x01) = [] ∧
      busBytes s1.cfg 0x01 ([.bw .pb 6 false, .dly .setup0] ++ initEvents s1.cfg 0x01) =
        [(false, 0x28), (false, 0x08), (false, 0x06), (false, 0x01)] := by decide +kernel

/-- V-XFER-4: the high bits are read back and kept. -/
theorem test_send_nibble :
    (match sendNibble 0xA { s1 with pb := 0xC7 } with
      | .ok t => some (t.trace, t.pb)
      | .error _ => none) =
      some ([.rd .pb 0xC7, .wr .pb 0xCA, .bw .pb 4 true, .dly .pulse, .bw .pb 4 false, .dly .pulse], 0xCA) := by decide

/-- V-XFER-6. -/
theorem test_send_command :
    (match sendCommand 0x00 { s1 with pb := 0xEF } with
      | .ok t => some ((t.trace.take 3, t.trace.drop 13), t.pb, latched t.cfg 0xEF t.trace)
      | .error _ => none) =
      some (([.bw .pb 6 false, .rd .pb 0xAF, .wr .pb 0xA0], [.dly .settle]), 0xA0,
        [(false, 0x0), (false, 0x0)]) := by decide

/-! ### Text and cursor -/

/-- V-P1's second operation (T7). -/
theorem test_write :
    seen (busView 0x01) (exec (.write [0x41, 0x42]) s1) =
      some ([(false, 0x80), (true, 0x41), (true, 0x42)], 42, ok 2) := by decide +kernel

/-- V-TXT-7: a newline in mid-text. -/
theorem test_write_newline :
    seen (fun t => (busView 0x01 t, cursorView t)) (exec (.write [0x78, 0x79, 0x7A, 0x0A, 0x51]) { s1 with addr := 14 }) =
      some (([(false, 0x8E), (true, 0x78), (true, 0x79), (true, 0x7A), (false, 0xC0), (true, 0x51)], 84, ok 0x41),
        [65, 1, 0x41]) := by decide +kernel

/-- V-CUR-9, from its packet: the address is reduced modulo 80. -/
theorem test_setcur :
    seen (fun t => (busView 0x01 t, cursorView t)) (deliver [0x11, 0x27, 0x01] s1) =
      some (([(false, 0x97)], 14, ok 0x17), [23, 1, 0x07]) := by decide +kernel

/-- V-ENC-22: both operands clamped from below. -/
theorem test_setcur_clamps :
    seen (fun t => (busView 0x01 t, cursorView t)) (deliver [0x11, 0x80, 0x80] s1) =
      some (([(false, 0x80)], 14, ok 0), [0, 0, 0x00]) := by decide +kernel

/-- V-CLR-1. -/
theorem test_clear :
    seen (fun t => (busView 0x80 t, cursorView t, t.em))
        (exec .clear { s1 with addr := 17, row := 1, pb := 0x80 }) =
      some (([(false, 0x01)], 15, ok 0), [0, 0, 0x81], 0x02) := by decide +kernel

/-- V-CLR-2. -/
theorem test_home :
    seen (fun t => (busView 0x00 t, cursorView t)) (exec .home { s1 with addr := 5, pb := 0x00 }) =
      some (([(false, 0x02)], 15, ok 0), [0, 0, 0x02]) := by decide +kernel

/-! ### Display attributes: the run V-ATTR-1 to V-ATTR-15, each from the state before it -/

/-- The state of that run with the given flags and latch. -/
def attr (dc em pb : Byte) : State := { s1 with dc := dc, em := em, pb := pb }

theorem test_dispon : seen (fun t => (busView 0x01 t, flagView t)) (exec .dispon (attr 0x00 0x02 0x01)) =
    some (([(false, 0x0C)], 14, ok 0), [0x04, 0x02, 0x0C]) := by decide +kernel
theorem test_curon : seen (fun t => (busView 0x0C t, flagView t)) (exec .curon (attr 0x04 0x02 0x0C)) =
    some (([(false, 0x0E)], 14, ok 0), [0x06, 0x02, 0x0E]) := by decide +kernel
theorem test_blinkon : seen (fun t => (busView 0x0E t, flagView t)) (exec .blinkon (attr 0x06 0x02 0x0E)) =
    some (([(false, 0x0F)], 14, ok 0), [0x07, 0x02, 0x0F]) := by decide +kernel
theorem test_curoff : seen (fun t => (busView 0x0F t, flagView t)) (exec .curoff (attr 0x07 0x02 0x0F)) =
    some (([(false, 0x0D)], 14, ok 0), [0x05, 0x02, 0x0D]) := by decide +kernel
theorem test_dispoff : seen (fun t => (busView 0x0D t, flagView t)) (exec .dispoff (attr 0x05 0x02 0x0D)) =
    some (([(false, 0x09)], 14, ok 0), [0x01, 0x02, 0x09]) := by decide +kernel
theorem test_blinkoff : seen (fun t => (busView 0x09 t, flagView t)) (exec .blinkoff (attr 0x01 0x02 0x09)) =
    some (([(false, 0x08)], 14, ok 0), [0x00, 0x02, 0x08]) := by decide +kernel
theorem test_ascron : seen (fun t => (busView 0x08 t, flagView t)) (exec .ascron (attr 0x00 0x02 0x08)) =
    some (([(false, 0x07)], 14, ok 0), [0x00, 0x03, 0x07]) := by decide +kernel
theorem test_rtl : seen (fun t => (busView 0x07 t, flagView t)) (exec .rtl (attr 0x00 0x03 0x07)) =
    some (([(false, 0x05)], 14, ok 0), [0x00, 0x01, 0x05]) := by decide +kernel
theorem test_ascroff : seen (fun t => (busView 0x05 t, flagView t)) (exec .ascroff (attr 0x00 0x01 0x05)) =
    some (([(false, 0x04)], 14, ok 0), [0x00, 0x00, 0x04]) := by decide +kernel
theorem test_ltr : seen (fun t => (busView 0x04 t, flagView t)) (exec .ltr (attr 0x00 0x00 0x04)) =
    some (([(false, 0x06)], 14, ok 0), [0x00, 0x02, 0x06]) := by decide +kernel

/-- V-ATTR-12: one event, and the session's flag stays. -/
theorem test_blon : seen (fun t => (t.trace, t.pb, t.backlightOn)) (exec .blon (attr 0x00 0x02 0x06)) =
    some (.bw .pb 7 true :: ok 0, 0x86, false) := by decide
/-- V-ATTR-14. -/
theorem test_bloff : seen (fun t => (t.trace, t.pb)) (exec .bloff (attr 0x04 0x02 0x8C)) =
    some (.bw .pb 7 false :: ok 0, 0x0C) := by decide
/-- V-ATTR-13: bit 7 survives a transfer. -/
theorem test_backlight_survives : seen State.pb (exec .dispon (attr 0x00 0x02 0x86)) = some 0x8C := by decide +kernel

/-! ### Custom glyphs -/

/-- V-GLY-1. -/
theorem test_storeg : seen (fun t => (busView 0x01 t, cursorView t)) (exec (.storeg 1 heart) s1) =
    some (([(false, 0x48), (true, 0x00), (true, 0x0A), (true, 0x1F), (true, 0x1F), (true, 0x0E), (true, 0x04),
      (true, 0x00), (true, 0x00)], 126, ok 0), [0, 0, 0x40]) := by decide +kernel

/-- V-GLY-2, V-GLY-4: the location is masked to three bits. -/
theorem test_storeg_masks :
    seen (fun t => (busBytes t.cfg 0x01 t.trace).head?) (exec (.storeg 9 heart) s1) = some (some (false, 0x48)) ∧
      seen (fun t => (busBytes t.cfg 0x01 t.trace).head?) (exec (.storeg 0xF8 heart) s1) = some (some (false, 0x40)) := by
  decide +kernel

/-- V-GLY-7: the location goes out unmasked, a newline's code as data. -/
theorem test_writeg : seen (fun t => (busView 0x49 t, cursorView t)) (exec (.writeg 0x0A) { s1 with addr := 2, pb := 0x49 }) =
    some (([(false, 0x82), (true, 0x0A)], 28, ok 3), [3, 0, 0x4A]) := by decide +kernel
/-- V-GLY-8: the address wraps. -/
theorem test_writeg_wraps : seen (fun t => (t.addr, t.row)) (exec (.writeg 0) { s1 with addr := 79 }) = some (0, 0) := by
  decide +kernel

/-! ### Poller -/

/-- V-POLL-1: the eight single-button keys; T1: the first registration is kept. -/
theorem test_regs : ([1, 2, 3, 4, 5, 6, 7, 8] : List Byte).map singleKey =
    [some 254, some 253, some 251, some 247, some 239, some 223, some 191, some 127] := by decide
theorem test_regs_first_wins :
    seen (fun t => (Memory.read t.map 254, t.trace)) (deliver [0x40, 0x01, 0x22] { s1 with map := [(254, 0x11)] }) =
      some (some 0x11, ok 0) := by decide

/-- V-POLL-2a, V-POLL-2e, V-POLL-2g. -/
theorem test_regc :
    seen (fun t => (t.map, t.trace)) (deliver [0x41, 0x33, 0x02, 0x01, 0x02] s1) = some ([(248, 0x33)], ok 0) ∧
      comboKey [1, 1] = some 250 ∧ comboKey [1, 2, 3, 4, 5, 6, 7] = some 0 := by decide
/-- V-POLL-2h: an address below 0 is refused, not wrapped. -/
theorem test_regc_refused :
    seen (fun t => (t.map, t.trace)) (exec (.regc 1 [0, 1, 2, 3, 4, 5, 6, 7]) s1) = some ([], refused .badOperand) := by
  decide

/-- V-ENC-19, and R213 while a tick is in flight. -/
theorem test_setint :
    seen (fun t => (t.interval, t.running, t.trace)) (deliver [0x42, 0xFA, 0x00, 0x00, 0x00] s1) =
      some (250, false, ok 0) := by decide
theorem test_setint_held :
    seen (fun t => (t.interval, t.appWait, t.trace)) (exec (.setint 50) { s1 with running := true, tickBusy := true }) =
      some (100, some (.setint 50), []) := by decide

/-- V-POLL-4. -/
theorem test_pollstart : seen (fun t => (t.running, t.last, t.trace)) (exec .pollstart s1) = some (true, 255, ok 0) := by
  decide
/-- V-POLL-5, V-EXC-12. -/
theorem test_pollstop : seen (fun t => (t.running, t.trace)) (exec .pollstop { s1 with running := true }) =
    some (false, ok 0) := by decide
theorem test_pollstop_in_its_own_handler :
    seen (fun t => (t.running, t.handlerWait, t.trace))
        (exec .pollstop { s1 with issuer := .handler, running := true, lock := true, tickBusy := true, tick := .inHandler 0x11 }) =
      some (true, some .pollstop, []) := by decide

/-- A polling state with a handler under 254. -/
def polling : State := { s1 with running := true, map := [(254, 0x11)], sw := 254 }

/-- V-POLL-7, event by event. -/
theorem test_tick_samples : seen (fun t => (t.trace, t.tickBusy, t.last)) (step (due (.pollt true) [] polling)) =
    some ([.rd .sw 254], true, 255) := by decide
theorem test_tick_dispatches :
    seen (fun t => (t.trace, t.last, t.lock, t.tick))
        (step (due (.pollt true) [] { polling with tick := .sampled 254, tickBusy := true })) =
      some ([.disp 0x11], 254, true, .inHandler 0x11) := by decide
theorem test_handler_returns :
    seen (fun t => (t.trace, t.lock, t.tickBusy))
        (step (due (.hret true) [] { polling with tick := .inHandler 0x11, tickBusy := true, lock := true })) =
      some ([.hret true], true, true) := by decide
/-- V-POLL-9: a chord does not fire the single button's handler. -/
theorem test_tick_chord :
    seen (fun t => (t.trace, t.last, t.tickBusy))
        (step (due (.pollt true) [] { polling with last := 254, tick := .sampled 252, tickBusy := true })) =
      some ([], 252, false) := by decide
/-- V-POLL-15. -/
theorem test_handler_fails :
    seen (fun t => (t.fault, t.halted, t.lock, t.trace))
        (step (due (.pollt true) [] { polling with tick := .returned 0x11 false, tickBusy := true, lock := true })) =
      some (some .handlerFault, true, false, []) := by decide

/-! ### Session -/

/-- V-SES-1, V-SES-2 (T5). -/
theorem test_sdisp_on : seen (fun t => (busView 0x01 t, flagView t, t.displayOn)) (deliver [0x52, 0x01] s1) =
    some (([(false, 0x0C)], 14, ok 0), [0x04, 0x02, 0x0C], true) := by decide +kernel
/-- V-SES-8: the backlight goes off with the display. -/
theorem test_sdisp_off :
    seen (fun t => (t.trace.drop 14, flagView t, sessionView t))
        (exec (.sdisp 0) { attr 0x04 0x02 0xC8 with displayOn := true, backlightOn := true }) =
      some (.bw .pb 7 false :: ok 0, [0x00, 0x02, 0x08], [false, false, false]) := by decide +kernel
/-- V-SES-4, V-SES-5. -/
theorem test_sbl_on : seen (fun t => (t.trace, t.pb, sessionView t)) (deliver [0x53, 0x01] (attr 0x00 0x02 0x08)) =
    some (.bw .pb 7 true :: ok 0, 0x88, [false, true, false]) := by decide
theorem test_sbl_again : seen State.trace (exec (.sbl 1) { s1 with backlightOn := true, devOpen := false }) =
    some (ok 0) := by decide
/-- V-SES-10: the backlight step only. -/
theorem test_swrite :
    seen (fun t => (busView 0x0C t, cursorView t, sessionView t))
        (exec (.swrite [0x51]) { attr 0x04 0x02 0x0C with displayOn := true }) =
      some (([(false, 0x80), (true, 0x51)], 29, ok 1), [1, 0, 0xC1], [true, true, false]) := by
  decide +kernel
/-- V-SES-12: a pending timer is cancelled. -/
theorem test_swrite_cancels :
    seen (fun t => (busView 0xC1 t, t.timeoutActive, t.timeout))
        (exec (.swrite [0x42]) { attr 0x04 0x02 0xC1 with
          addr := 1, displayOn := true, backlightOn := true, timeoutActive := true, timeout := 1000 }) =
      some (([(false, 0x81), (true, 0x42)], 28, ok 2), false, 1000) := by decide +kernel
/-- V-SES-11, from its packet. -/
theorem test_swritet :
    seen (fun t => (busView 0x01 t, cursorView t, sessionView t))
        (deliver [0x51, 0x01, 0x00, 0xE8, 0x03, 0x00, 0x00, 0x41] s1) =
      some (([(false, 0x0C), (false, 0x80), (true, 0x41)], 43, ok 1), [1, 0, 0xC1], [true, true, true]) := by
  decide +kernel
/-- V-SES-15. -/
theorem test_expire :
    seen (fun t => (busBytes t.cfg 0xC1 t.trace, t.trace.length, cursorView t, sessionView t, t.expBusy))
        (step (due .offt [] { attr 0x04 0x02 0xC1 with
          addr := 1, displayOn := true, backlightOn := true, timeoutActive := true, timeout := 1000 })) =
      some ([(false, 0x01), (false, 0x08)], 30, [0, 0, 0x08], [false, false, false], false) := by decide +kernel

/-- R240's pseudocode where R246 a says otherwise: the display held off, the light stays on (log entry 23). -/
theorem test_sdisp_off_keeps_light :
    seen (fun t => (t.trace, t.backlightOn)) (exec (.sdisp 0) { s1 with backlightOn := true }) = some (ok 0, true) := by
  decide

/-! ### Faults, interleaving, reset -/

/-- V-EXC-1: the 23rd primitive fails. -/
theorem test_iofault :
    seen (fun t => (t.trace.drop 22, t.fault, decide (t.seq = .idle), cursorView t))
        (step (due (.packet .app [0x10, 0x02, 0x00, 0x41, 0x42]) (failAt 22) s1)) =
      some (faulted .ioFault, some .ioFault, true, [0, 0, 0x44]) ∧
    seen (fun t => (t.raises, latched t.cfg 0x01 t.trace))
        (step (due (.packet .app [0x10, 0x02, 0x00, 0x41, 0x42]) (failAt 22) s1)) =
      some ([.ioFault .write 22], [(false, 0x8), (false, 0x0), (true, 0x4)]) := by decide +kernel

/-- V-EXC-4. -/
theorem test_device_not_open :
    seen (fun t => (t.dc, t.pb, t.fault, t.trace)) (deliver [0x20] { s0 with devOpen := false }) =
      some (0x04, 0x00, some .deviceNotOpen, faulted .deviceNotOpen) := by decide

/-- The application's WRITE "AB" in V-EXC-7 and V-EXC-8: a packet of the handler context after its event 5. -/
def overlapping (bytes : List Byte) : State :=
  due (.packet .app [0x10, 0x02, 0x00, 0x41, 0x42]) (List.replicate 4 ⟨false, []⟩ ++ [⟨false, [.packet .handler bytes]⟩])
    { s1 with running := true, lock := true, tickBusy := true, tick := .inHandler 0x11, displayOn := true }

/-- V-EXC-7. -/
theorem test_concurrent_lcd :
    seen (fun t => (busBytes t.cfg 0x01 t.trace, t.trace[5]?, t.trace.getLast?, t.fault, t.addr))
        (step (overlapping [0x12])) =
      some ([(false, 0x80), (true, 0x41), (true, 0x42)], some (.resp .handler (.fault .concurrentLcd)),
        some (.resp .app (.ok 2)), some .concurrentLcd, 2) := by decide +kernel
/-- V-EXC-8. -/
theorem test_no_overlap :
    seen (fun t => (t.trace[5]?, t.fault)) (step (overlapping [0x52, 0x01])) = some (some (.resp .handler (.ok 0)), none) ∧
      seen (fun t => (t.trace[5]?, t.map, t.fault)) (step (overlapping [0x40, 0x02, 0x02])) =
        some (some (.resp .handler (.ok 0)), [(253, 2)], none) := by decide +kernel
/-- V-EXC-9. -/
theorem test_expiry_collides :
    seen (fun t => (t.fault, t.expBusy, t.timeoutActive, t.displayOn, t.addr))
        (step (due (.packet .app [0x10, 0x01, 0x00, 0x41]) [⟨false, [.offt]⟩]
          { s1 with timeoutActive := true, displayOn := true })) =
      some (some .concurrentLcd, false, false, true, 1) := by decide +kernel
/-- R263: an operation part-way when the block halts stops there and answers nothing. -/
theorem test_halt_cuts :
    seen (fun t => (t.trace, t.halted))
        (step (due (.packet .app [0x26]) [⟨false, [.pollt true]⟩]
          { s1 with running := true, tick := .returned 0x11 false, tickBusy := true, lock := true })) =
      some ([.bw .pb 7 true], true) := by decide
/-- V-RST-2, and R318: a restart of the block alone keeps the latch. -/
theorem test_reset :
    seen (fun t => (t.halted, t.fault, t.devOpen, t.pb))
        (step (due (.reset false) [] { s1 with halted := true, fault := some .handlerFault, pb := 0x80 })) =
      some (false, none, false, 0x80) := by decide

/-- `State.withFetchWord` makes the very next step run the word, from reset on. -/
theorem test_fetch_word :
    seen (fun t => (t.running, t.trace)) (step (State.reset.withFetchWord 8 0x43)) = some (true, ok 0) := by decide

/-- R324's launch premises: `S0` has had no INIT, the state an INIT leaves has. -/
theorem test_launched :
    AtReset s0 ∧ ¬ Booted s0 ∧ Booted s1 ∧ seen (fun t => decide (Booted t)) (deliver [0x01] s0) = some true := by
  decide +kernel

/-- V-END-1, V-END-2, V-END-7. -/
theorem test_run_ends :
    GoodEnd { s1 with addr := 2, pb := 0x42 } ∧ ¬ RunOver { s1 with timeoutActive := true } ∧
      RunOver { s1 with fault := some .ioFault } ∧ ¬ GoodEnd { s1 with fault := some .ioFault } := by decide

/-! ### Assembler syntax and aliases: the examples of R97, the table of R98 -/

/-- Operands of every kind, from the examples of R97 and its escapes. -/
theorem test_assemble_operands :
    assemble 0x0A "SETCUR 100, 0  ; clamped" = some (.op (.setcur 100 0)) ∧
      assemble 0x0A "REGC h=0x33, [1,2]" = some (.op (.regc 0x33 [1, 2])) ∧
      assemble 0x0A "STOREG 1, [0x00,0x0A,0x1F,0x1F,0x0E,0x04,0x00,0x00]" = some (.op (.storeg 1 heart)) ∧
      assemble 0x0A "SWRITET \"Hi\", 50" = some (.op (.swritet [0x48, 0x69] 50)) ∧
      assemble 0x0A "WRITE \"a;,\\n\\x41\\\"\"" = some (.op (.write [0x61, 0x3B, 0x2C, 0x0A, 0x41, 0x22])) ∧
      assemble 0x0A "SDISP off" = some (.op (.sdisp 0)) := by decide +kernel

/-- Events of a listing, and lines that are none of the syntax. -/
theorem test_assemble_events :
    assemble 0x0A "@TICK sw=254" = some (.tick 254) ∧ assemble 0x0A "@HRET fail" = some (.hret false) ∧
      assemble 0x0A "SETCUR 128, 0" = none ∧ assemble 0x0A "SBL 1" = none ∧ assemble 0x0A "  ; nothing" = some .blank := by
  decide +kernel

/-- R98: one alias per family of its table. -/
theorem test_expand :
    expand (.writeTimeout [0x48] 50) = [.swritet [0x48] 50] ∧ expand (.driverWrite []) = [.write []] ∧
      expand (.toggleDisplay true) = [.sdisp 1] ∧ expand (.cursor false) = [.curoff] ∧
      expand (.leftToRight false) = [.rtl] ∧ expand (.registerCombo [1, 2] 0x33) = [.regc 0x33 [1, 2]] := by decide +kernel

/-- R98: one byte more than a packet holds is two pieces. -/
theorem test_pieces (text : List Byte) (h : text.length = 65536) :
    (pieces 2 text).map List.length = [65535, 1] := by
  simp [pieces, maxText, h]

/-! ### Witnesses: a state and operands that meet all hypotheses of each obligation -/

/-- A state in which every operation executes normally, and its parameters. -/
theorem test_witness_ready : Ready s1 ∧ Quiet s1 ∧ s1.cfg.PinsOk ∧ bitOf s1.pb s1.cfg.pinEn = false ∧ s1.addr.toNat < 80 := by
  decide

theorem test_witness_round_trip : (Instr.setcur (-128) 127).WellFormed = true ∧
    (Instr.swritet (List.replicate 65535 0) 1).WellFormed = true := by
  refine ⟨by decide, ?_⟩
  simp only [Instr.WellFormed, fitsLength16, List.length_replicate]; decide

theorem test_witness_one_meaning : decode [0x11, 0x80, 0x7F] = .ok (.setcur (-128) 127) := by decide

/-- Each clause, at the shortest and at a wrong length. -/
theorem test_witness_packet_length : formatOf 0x54 = none ∧
    (formatOf 0x41 = some .k ∧ [(0x41 : Byte), 0x00, 0x00].length = packetLength .k 0x00 0x00) ∧
    (formatOf 0x51 = some .t ∧ [(0x51 : Byte), 0x00].length ≠ packetLength .t 0x00 0x00) := by decide

theorem test_witness_step_runs :
    (due (.packet .app [0x12]) [] s1).agenda = [⟨.packet .app [0x12], []⟩] ∧
      packetBreach .app (taken [] [] (due (.packet .app [0x12]) [] s1)) = none ∧ decode [0x12] = .ok .clear ∧
      State.reset.agenda = [] := by decide

theorem test_witness_undecodable :
    (due (.packet .app [0x12, 0x00]) [] s1).agenda = [⟨.packet .app [0x12, 0x00], []⟩] ∧
      packetBreach .app (taken [] [] (due (.packet .app [0x12, 0x00]) [] s1)) = none ∧
      decode [0x12, 0x00] = .error .badLength := by decide

theorem test_witness_transfers : Quiet s1 ∧ s1.cfg.PinsOk ∧ bitOf s1.pb s1.cfg.pinEn = false ∧
    (match sendBus true 0x41 s1 with
      | .ok t => decide (t.pb = 0x41)
      | .error _ => false) = true := by decide +kernel

theorem test_witness_p0 : s1.cfg = Config.p0 ∧ Config.p0.PinsOk := by decide

theorem test_witness_clear_home :
    Ready s1 ∧ (Instr.clear = .clear ∧ s1.cfg.cmdClear = s1.cfg.cmdClear ∨ Instr.clear = .home ∧ s1.cfg.cmdClear = s1.cfg.cmdHome) ∧
      (Instr.home = .clear ∧ s1.cfg.cmdHome = s1.cfg.cmdClear ∨ Instr.home = .home ∧ s1.cfg.cmdHome = s1.cfg.cmdHome) := by
  decide

theorem test_witness_text_laws :
    s1.cfg.newline ∉ ([0x41, 0x42] : List Byte) ∧ s1.cfg.newline ∉ ([] : List Byte) ∧
      ({ s1 with addr := 79 } : State).addr.toNat < 80 := by decide

theorem test_witness_toggles :
    dcToggle s1.cfg .dispon = some (0x04, true) ∧ dcToggle s1.cfg .blinkoff = some (0x01, false) ∧
      emToggle s1.cfg .ltr = some (0x02, true) ∧ emToggle s1.cfg .ascroff = some (0x01, false) ∧ Ready s1 ∧ Alone s1 := by
  decide

theorem test_witness_glyph_frame : noReset s1.weave = true ∧ seen State.row (exec (.writeg 7) s1) = some 0 := by
  decide +kernel

theorem test_witness_regs : s1.halted = false ∧ (1 : Byte).toNat ≥ 1 ∧ (8 : Byte).toNat ≤ 8 := by decide

/-- The largest sum that has a key (V-POLL-2g). -/
theorem test_witness_regc :
    (([1, 2, 3, 4, 5, 6, 7] : List Byte).map (fun i : Byte => 2 ^ i.toNat)).sum ≤ 254 := by decide

theorem test_witness_keys : comboSum [0, 1, 2, 3, 4, 5, 6] = 2 ^ ((8 : Byte).toNat - 1) - 1 ∧
    comboSum [] = 2 ^ ((1 : Byte).toNat - 1) - 1 ∧ ([1, 2] : List Byte).Perm [2, 1] ∧
    Memory.read ([] : Memory) 0 = none := by decide

theorem test_witness_setint : s1.halted = false ∧ (1 : Word32) ≠ 0 := by decide

theorem test_witness_held : (due (.resume .app) [] { s1 with appWait := some .pollstop }).agenda = [⟨.resume .app, []⟩] ∧
    waitOf .app (due (.resume .app) [] { s1 with appWait := some .pollstop }) = some .pollstop ∧
    waitOf .handler (due (.resume .handler) [] { s1 with handlerWait := some (.setint 5) }) = some (.setint 5) ∧
    s1.halted = false := by decide

theorem test_witness_switches :
    (s1.displayOn = false ∧ s1.backlightOn = !true ∧ Ready s1) ∧
      (Ready { s1 with displayOn := true, backlightOn := true } ∧
        ({ s1 with displayOn := true, backlightOn := true } : State).displayOn = true) := by decide

theorem test_witness_session_write : Ready { s1 with timeoutActive := true } ∧
    (({ s1 with timeoutActive := true } : State).timeoutActive = true → s1.expBusy = false) := by decide

theorem test_witness_expire : (due .offt [] { s1 with timeoutActive := true }).agenda = [⟨.offt, []⟩] ∧
    (due .offt [] { s1 with timeoutActive := true }).timeoutActive = true ∧ s1.halted = false ∧ s1.seq = .idle ∧
    s1.devOpen = true := by decide

/-- The device closed, and a first access that fails. -/
theorem test_witness_expire_faults :
    (({ s1 with timeoutActive := true, devOpen := false } : State).devOpen = false) ∧
      seen (fun t => (t.trace[0]?, (t.trace[0]?).map isAccess)) (step (due .offt [] { s1 with timeoutActive := true })) =
        some (some (.bw .pb 6 false), some true) ∧
      seen (fun t => (t.trace, t.raises, t.expBusy))
        (step (due .offt (failAt 0) { s1 with timeoutActive := true })) = some ([], [.ioFault .expire 0], false) := by
  decide +kernel

theorem test_witness_tick_samples : (due (.pollt false) [] polling).agenda = [⟨.pollt false, []⟩] ∧
    polling.halted = false ∧ polling.tick = .idle ∧ polling.running = true ∧ polling.tickBusy = false := by decide

/-- The three clauses: an unchanged value, a value without a handler, a value with one. -/
theorem test_witness_tick_filters :
    (255 : Byte) = polling.last ∧ ((252 : Byte) ≠ polling.last ∧ Memory.read polling.map (252 : Byte).toNat = none) ∧
      ((254 : Byte) ≠ polling.last ∧ Memory.read polling.map (254 : Byte).toNat = some 0x11 ∧ polling.lock = false) ∧
      ({ polling with tick := .sampled 254 } : State).tick = .sampled 254 := by decide

theorem test_witness_handler_returns :
    (({ polling with tick := .inHandler 0x11 } : State).tick = .inHandler 0x11 ∧
      contextBusy .handler { polling with tick := .inHandler 0x11 } = false) ∧
      ({ polling with tick := .returned 0x11 true } : State).tick = .returned 0x11 true ∧
      ({ polling with tick := .returned 0x11 false } : State).tick = .returned 0x11 false ∧ polling.halted = false := by
  decide

theorem test_witness_ticks_dropped :
    ({ polling with tick := .inHandler 0x11 } : State).tick = .inHandler 0x11 ∧
      (s1.tick = .idle ∧ s1.running = false) ∧ ({ s1 with halted := true } : State).halted = true := by decide

theorem test_witness_out_of_domain :
    (0 : Byte).toNat < 1 ∧ 8 < (9 : Byte).toNat ∧
      254 < (([0, 1, 2, 3, 4, 5, 6, 7] : List Byte).map (fun n : Byte => 2 ^ n.toNat)).sum ∧ 1 < (2 : Byte).toNat := by
  decide

/-- WRITE in flight, as in V-EXC-7. -/
def midWrite : State := { s1 with seq := .busy .host .write 5 }

/-- A packet of the handler context during the application's WRITE, as in V-EXC-7. -/
theorem test_witness_overlap_packet :
    packetBreach .handler { midWrite with lock := true, tickBusy := true, tick := .inHandler 0x11 } = none ∧
      decode [0x12] = .ok .clear ∧ operandOk .clear = true ∧ touches .clear midWrite = some .clear ∧
      decode [0x52, 0x01] = .ok (.sdisp 1) ∧ touches (.sdisp 1) midWrite = some .sdisp ∧ midWrite.halted = false ∧
      midWrite.seq = .busy .host .write 5 := by decide

theorem test_witness_overlap : midWrite.halted = false ∧ operandOk .clear = true ∧ touches .clear midWrite = some .clear ∧
    operandOk (.sdisp 1) = true ∧ touches (.sdisp 1) midWrite = some .sdisp ∧ midWrite.seq = .busy .host .write 5 ∧
    ({ midWrite with timeoutActive := true } : State).timeoutActive = true := by decide

theorem test_witness_closed_device : State.reset.halted = false ∧ operandOk .dispon = true ∧
    touches .dispon State.reset = some .dispon ∧ touches (.swrite [1]) State.reset = some .swrite ∧
    State.reset.seq = .idle ∧ State.reset.devOpen = false ∧
    (State.reset.timeoutActive = true → State.reset.expBusy = false) := by decide

theorem test_witness_precise : Ready s1 ∧
    exec .blon s1 = .next { s1 with pb := 0x81, trace := [.bw .pb 7 true, .resp .app (.ok 0)] } ∧
    ([.bw .pb 7 true] : List Event)[0]? = some (.bw .pb 7 true) ∧ isAccess (.bw .pb 7 true) = true :=
  ⟨by decide, rfl, rfl, rfl⟩

/-- A tick's sample between two events: no reset, a next state, no fault. -/
theorem test_witness_interleaving :
    noReset ({ polling with weave := [⟨false, [.pollt true]⟩] } : State).weave = true ∧
      seen (fun t => (t.trace, t.fault)) (exec .blon { polling with weave := [⟨false, [.pollt true]⟩] }) =
        some ([.bw .pb 7 true, .rd .sw 254, .resp .app (.ok 0)], none) := by decide

theorem test_witness_reset : (due (.reset true) [] s1).agenda = [⟨.reset true, []⟩] ∧
    (due (.reset false) [] s1).agenda = [⟨.reset false, []⟩] := by decide

/-- The invariant holds in a state from which a step does something. -/
theorem test_witness_invariant :
    BlockInv (due (.packet .app [0x43]) [] s1) ∧ seen State.running (step (due (.packet .app [0x43]) [] s1)) = some true :=
  ⟨⟨⟨by decide, by decide, by decide, by decide +kernel, by decide +kernel⟩, by decide, by decide, by decide, by decide⟩,
    by decide⟩

theorem test_witness_sticky : ({ s1 with fault := some .ioFault } : State).fault = some .ioFault ∧
    nextNoReset (due (.packet .app [0x43]) [] { s1 with fault := some .ioFault }) = true ∧
    Memory.read polling.map 254 = some 0x11 ∧ nextNoReset (due (.pollt true) [] polling) = true ∧
    seen State.fault (step (due (.packet .app [0x43]) [] { s1 with fault := some .ioFault })) = some (some .ioFault) := by
  decide

theorem test_witness_halted :
    FlightLegal { s1 with halted := true, fault := some .handlerFault } ∧
      nextNoReset (due (.packet .app [0x12]) [] { s1 with halted := true, fault := some .handlerFault }) = true ∧
      seen State.trace (step (due (.packet .app [0x12]) [] { s1 with halted := true, fault := some .handlerFault })) =
        some (refused .halted) := by decide

theorem test_witness_last_and_lock :
    (Turn.mk (.packet .app [0x26]) [⟨false, [.switches 1]⟩]).noReset = true ∧
      isPollt (.packet .app [0x26]) = false ∧ weaveAll (fun a => !isPollt a) [⟨false, [.switches 1]⟩] = true ∧
      seen State.sw (step (due (.packet .app [0x26]) [⟨false, [.switches 1]⟩] s1)) = some 1 := by decide

theorem test_witness_bypass : isSession .blon = false ∧
    noReset ({ s1 with weave := [⟨false, [.pollt true]⟩] } : State).weave = true ∧
    seen State.backlightOn (exec .blon { s1 with weave := [⟨false, [.pollt true]⟩] }) = some false := by decide

/-- The frames' premises, with an access that fails. -/
theorem test_witness_frames :
    Alone { s1 with weave := failAt 0 } ∧
      seen State.fault (exec .blon { s1 with weave := failAt 0 }) = some (some .ioFault) ∧
      seen State.fault (exec .home { s1 with weave := failAt 0 }) = some (some .ioFault) ∧
      seen State.fault (exec (.sbl 1) { s1 with weave := failAt 0 }) = some (some .ioFault) ∧
      seen State.interval (exec (.setint 7) s1) = some 7 := by decide

end Sys2Proof.Tests
end

section
/-!
The model's bookkeeping along a step: the parameters of R5 stay and the trace of R9 is only appended to, whatever the
schedule weaves in, and over a reset too.
-/

namespace Sys2Proof.Machine

/-- `t` has the parameters of `s` and a trace that begins with that of `s`. -/
def Grown (s t : State) : Prop := t.cfg = s.cfg ∧ s.trace <+: t.trace

theorem Grown.silent {s t : State} (hc : t.cfg = s.cfg) (ht : t.trace = s.trace) : Grown s t :=
  ⟨hc, ht ▸ List.prefix_rfl⟩

theorem Grown.oneEvent {s t : State} {e : Event} (hc : t.cfg = s.cfg) (ht : t.trace = s.trace ++ [e]) : Grown s t :=
  ⟨hc, ht ▸ List.prefix_append _ _⟩

theorem Grown.refl (s : State) : Grown s s := .silent rfl rfl

theorem Grown.trans {s t u : State} (h : Grown s t) (k : Grown t u) : Grown s u := ⟨k.1.trans h.1, h.2.trans k.2⟩

/-! ### One atomic step -/

theorem respond_grown (c : Ctx) (r : Response) (s : State) : Grown s (respond c r s) := .oneEvent rfl rfl

theorem raiseFault_grown (who : Raiser) (r : Raised) (s : State) : Grown s (raiseFault who r s) := by
  cases who with
  | host c => cases r <;> exact .oneEvent rfl rfl
  | tick => cases r <;> exact .silent rfl rfl
  | expire => cases r <;> exact .silent rfl rfl

theorem resetBlock_grown (powerOn : Bool) (s : State) : Grown s (resetBlock powerOn s) := .silent rfl rfl

theorem setWait_grown (c : Ctx) (w : Option Held) (s : State) : Grown s (setWait c w s) := by
  cases c <;> exact .silent rfl rfl

theorem stopPoller_grown (c : Ctx) (s : State) : Grown s (stopPoller c s) := .oneEvent rfl rfl

theorem restartPoller_grown (c : Ctx) (ms : Word32) (s : State) : Grown s (restartPoller c ms s) := .oneEvent rfl rfl

theorem registerOp_grown (c : Ctx) (key : Option Nat) (h : Byte) (s : State) : Grown s (registerOp c key h s) := by
  cases key <;> exact .oneEvent rfl rfl

theorem setintOp_grown (c : Ctx) (ms : Word32) (s : State) : Grown s (setintOp c ms s) := by
  unfold setintOp
  split_ifs
  · exact respond_grown _ _ _
  · exact setWait_grown _ _ _
  · exact restartPoller_grown _ _ _
  · exact .oneEvent rfl rfl

theorem pollstartOp_grown (c : Ctx) (s : State) : Grown s (pollstartOp c s) := by
  unfold pollstartOp
  split_ifs <;> exact .oneEvent rfl rfl

theorem pollstopOp_grown (c : Ctx) (s : State) : Grown s (pollstopOp c s) := by
  unfold pollstopOp
  split_ifs
  · exact setWait_grown _ _ _
  · exact stopPoller_grown _ _
  · exact respond_grown _ _ _

theorem resume_grown (c : Ctx) (s : State) : Grown s (resume c s) := by
  unfold resume
  split
  · exact .refl s
  · split_ifs
    · exact .refl s
    · split
      · exact (setWait_grown _ _ _).trans (stopPoller_grown _ _)
      · exact (setWait_grown _ _ _).trans (restartPoller_grown _ _ _)

theorem tickSample_grown (readOk : Bool) (s : State) : Grown s (tickSample readOk s) := by
  unfold tickSample
  split_ifs
  · exact .oneEvent rfl rfl
  · exact raiseFault_grown _ _ _
  · exact raiseFault_grown _ _ _

theorem tickLookup_grown (v : Byte) (s : State) : Grown s (tickLookup v s) := by
  unfold tickLookup
  split
  · exact .silent rfl rfl
  · split
    · exact .silent rfl rfl
    · split
      · exact .refl s
      · exact .oneEvent rfl rfl

theorem tickReturn_grown (h : Byte) (ok : Bool) (s : State) : Grown s (tickReturn h ok s) := by
  cases ok <;> exact .silent rfl rfl

theorem polltStep_grown (readOk : Bool) (s : State) : Grown s (polltStep readOk s) := by
  unfold polltStep
  split
  · exact .refl s
  · split
    · split
      · exact tickSample_grown _ _
      · exact .refl s
    · exact tickLookup_grown _ _
    · exact .refl s
    · exact tickReturn_grown _ _ _

theorem atomicOp_grown (c : Ctx) (i : Instr) (s : State) : Grown s (atomicOp c i s) := by
  cases i
  case regs => exact registerOp_grown _ _ _ _
  case regc => exact registerOp_grown _ _ _ _
  case setint => exact setintOp_grown _ _ _
  case pollstart => exact pollstartOp_grown _ _
  case pollstop => exact pollstopOp_grown _ _
  case sdisp => exact respond_grown _ _ _
  case sbl => exact respond_grown _ _ _
  all_goals exact .refl s

theorem overlapped_grown (c : Ctx) (i : Instr) (s : State) : Grown s (overlapped c i s) := by
  unfold overlapped
  split_ifs
  · exact respond_grown _ _ _
  · split
    · exact raiseFault_grown _ _ _
    · exact .refl s
    · exact atomicOp_grown _ _ _
  · exact respond_grown _ _ _

theorem expiryCollides_grown (s : State) : Grown s (expiryCollides s) := by
  unfold expiryCollides
  split_ifs
  · split
    · exact raiseFault_grown _ _ _
    · exact .refl s
  · exact .refl s

theorem act_ok_grown {a : Act} {s t : State} (h : act a s = .ok t) : Grown s t := by
  cases a with
  | packet c bytes =>
    simp only [act] at h
    split at h
    · cases h
    · split at h <;> cases h
      · exact overlapped_grown _ _ _
      · exact respond_grown _ _ _
  | pollt ok => cases h; exact polltStep_grown _ _
  | hret ok =>
    simp only [act] at h
    split at h
    · split_ifs at h
      cases h
      exact .oneEvent rfl rfl
    · cases h
  | offt => cases h; exact expiryCollides_grown _
  | resume c => cases h; exact resume_grown _ _
  | switches v => cases h; exact .silent rfl rfl
  | openDevice ok => cases h; exact .silent rfl rfl
  | closeDevice =>
    simp only [act] at h
    split_ifs at h
    cases h
    exact .silent rfl rfl
  | reset p => cases h

/-! ### Activities and turns -/

/-- A stopped activity stopped in a state that `s` has grown to; a breach leaves none. -/
def StopGrown (s : State) : Stop → Prop
  | .ended t => Grown s t
  | .breach _ => True

theorem act_ends_grown {s t : State} (h : Grown s t) (a : Act) : Ends (Grown s) (StopGrown s) (act a t) := by
  cases ha : act a t with
  | ok u => exact h.trans (act_ok_grown ha)
  | error e =>
    cases e with
    | breach f => trivial
    | ended u =>
      obtain ⟨powerOn, -, rfl⟩ := act_ended ha
      exact h.trans (resetBlock_grown _ _)

theorem weaveAll_true (w : List Slot) : weaveAll (fun _ => true) w = true := by
  simp [weaveAll]

theorem grown_woven (s : State) : Woven (fun _ => true) (Grown s) (StopGrown s) where
  tested t _ := weaveAll_true t.weave
  event _ _ h := h.trans (.oneEvent rfl rfl)
  latch _ _ h := h
  step a t _ h := (act_ends_grown h a).mono fun u hu => by split <;> exact hu
  failed t h _ := (h.trans (.silent rfl rfl)).trans (raiseFault_grown _ _ (popSlot t))
  closed _ h _ := h.trans (raiseFault_grown _ _ _)

/-- No register write of an operation touches the parameters or the trace. -/
theorem grown_kept (s : State) : Kept (Grown s) (StopGrown s) where
  addr _ _ _ h := h
  row _ _ _ h := h
  dc _ h := h
  display _ _ h := h
  backlight _ _ h := h
  cancel _ h := h
  hang _ h _ := h
  init _ h := ⟨h, h, h, h⟩
  arm _ _ h := h
  dcdOff _ h := h
  dcc _ _ h := h
  dcb _ _ h := h
  ems _ _ h := h
  emid _ _ h := h

theorem finishOp_grown (v : Byte) (s : State) : Grown s (finishOp v s) := .oneEvent rfl rfl

theorem exec_grown {i : Instr} {s t : State} (h : exec i s = .next t) : Grown s t := by
  rcases exec_reached (grown_woven s) (grown_kept s) h (fun _ _ _ => .silent rfl rfl) with
    ⟨r, rfl⟩ | ⟨-, rfl⟩ | ⟨-, op, inFlight, a, n, -, rfl⟩ | ⟨-, -, hq⟩ | ⟨-, -, u, v, hu, rfl⟩
  · exact respond_grown _ _ _
  · exact atomicOp_grown _ _ _
  · exact raiseFault_grown _ _ _
  · exact hq
  · exact hu.trans (finishOp_grown _ _)

theorem expire_grown {s t : State} (h : expire s = .next t) : Grown s t := by
  have k := grown_kept s
  rcases expire_next h (grown_woven s) k.addr k.row k.dcdOff k.display k.backlight
      (fun _ _ _ => .silent rfl rfl) with rfl | ⟨-, a, op, n, -, rfl⟩ | hq | ⟨u, hu, rfl⟩
  · exact .refl _
  · exact raiseFault_grown .expire _ { s with expBusy := true, timeoutActive := false }
  · exact hq
  · exact hu

theorem takePacket_grown {c : Ctx} {bytes : List Byte} {s t : State} (h : takePacket c bytes s = .next t) :
    Grown s t := by
  unfold takePacket at h
  split at h
  · cases h
  · split at h
    · exact exec_grown (s := { s with issuer := c }) h
    · cases h
      exact respond_grown _ _ _

theorem conclude_act_grown {a : Act} {s t : State} (h : conclude (act a s) = .next t) : Grown s t :=
  ((act_ends_grown (.refl s) a).of_conclude h).elim id id

theorem takeTurn_grown {a : Act} {s t : State} (h : takeTurn a s = .next t) : Grown s t := by
  cases a with
  | packet c bytes => exact takePacket_grown h
  | offt => exact expire_grown h
  | pollt ok => exact conclude_act_grown (a := .pollt ok) h
  | hret ok => exact conclude_act_grown (a := .hret ok) h
  | resume c => exact conclude_act_grown (a := .resume c) h
  | switches v => exact conclude_act_grown (a := .switches v) h
  | openDevice ok => exact conclude_act_grown (a := .openDevice ok) h
  | closeDevice => exact conclude_act_grown (a := .closeDevice) h
  | reset powerOn => exact conclude_act_grown (a := .reset powerOn) h

theorem step_grown {s t : State} (h : step s = .next t) : Grown s t := by
  unfold step at h
  split at h
  · cases h
    exact .refl s
  · exact takeTurn_grown (s := beginTurn _ _ s) h

/-- Settles O52: every step grows the state it starts from. -/
theorem parametersFixedAndTraceGrows : Obligations.ParametersFixedAndTraceGrows := by
  intro s t h
  obtain ⟨hcfg, es, htrace⟩ := step_grown h
  exact ⟨hcfg, es, htrace.symm⟩

end Sys2Proof.Machine
end

section
/-!
What one atomic step of another agent or of the environment can be, said once as a list of moves: those of the poll
timer (R216 to R219), and those of everybody else (R101, R211 to R215, R244, R265, R301). Every property of such a step
is then read off the list. Last, what a step between activities can be.
-/

namespace Sys2Proof.Machine

/-- What a step of POLLT can be. -/
inductive TickMove (s : State) : State → Prop where
  /-- dropped, held, or not possible -/
  | still : TickMove s s
  | sampled (live : s.halted = false) (run : s.running = true) (ht : s.tick = .idle) :
      TickMove s (emit (.rd .sw s.sw) { s with tickBusy := true, tick := .sampled s.sw })
  /-- `IOFault` or `DeviceNotOpen` at the register read -/
  | unread (live : s.halted = false) (ht : s.tick = .idle) (r : Raised)
      (hr : r = .ioFault .tick 0 ∨ r = .deviceNotOpen .tick 0) :
      TickMove s (raiseFault .tick r { s with tickBusy := true })
  /-- nothing to dispatch -/
  | ended (v w : Byte) (ht : s.tick = .sampled w) : TickMove s (tickEnd { s with last := v })
  | dispatched (v h : Byte) (ht : s.tick = .sampled v) :
      TickMove s (emit (.disp h) { s with last := v, lock := true, tick := .inHandler h })
  | handled (h : Byte) (ok : Bool) (ht : s.tick = .returned h ok) : TickMove s (tickEnd { s with lock := false })
  /-- R219 -/
  | failed (h : Byte) (ok : Bool) (ht : s.tick = .returned h ok) :
      TickMove s (raiseFault .tick (.handlerFault h) { s with lock := false })

/-- What a step of anybody else can be, but for a reset; an operation is held only in a context with `mayHold`. -/
inductive OtherMove (mayHold : Ctx → Prop) (s : State) : State → Prop where
  | still : OtherMove mayHold s s
  | answered (c : Ctx) (r : Response) : OtherMove mayHold s (respond c r s)
  | registered (c : Ctx) (a : Nat) (h : Byte) (ha : a ≤ 254) :
      OtherMove mayHold s (respond c (.ok 0) { s with map := Memory.register s.map a h })
  | held (c : Ctx) (w : Held) (hc : mayHold c) (hw : w ≠ .setint 0) : OtherMove mayHold s (setWait c (some w) s)
  | intervalSet (c : Ctx) (ms : Word32) (hms : ms ≠ 0) :
      OtherMove mayHold s (respond c (.ok 0) { s with interval := ms })
  | started (c : Ctx) : OtherMove mayHold s (respond c (.ok 0) { s with running := true })
  | restarted (c : Ctx) (ms : Word32) (hms : ms ≠ 0) : OtherMove mayHold s (restartPoller c ms s)
  | stopped (c : Ctx) (free : s.tickBusy = false) : OtherMove mayHold s (stopPoller c s)
  | resumedStop (c : Ctx) (free : s.tickBusy = false) : OtherMove mayHold s (stopPoller c (setWait c none s))
  | resumedRestart (c : Ctx) (ms : Word32) (hw : waitOf c s = some (.setint ms)) :
      OtherMove mayHold s (restartPoller c ms (setWait c none s))
  /-- R265, a packet -/
  | turnedAway (c : Ctx) (op inFlight : OpName) :
      OtherMove mayHold s (raiseFault (.host c) (.concurrentLcd op inFlight) s)
  /-- R244, R265, the auto-off timer -/
  | collided (inFlight : OpName) :
      OtherMove mayHold s (raiseFault .expire (.concurrentLcd .expire inFlight)
        { s with expBusy := true, timeoutActive := false })
  | returned (h : Byte) (ok : Bool) (ht : s.tick = .inHandler h) (free : s.handlerWait = none) :
      OtherMove mayHold s (handlerReturns h ok s)
  | switched (v : Byte) : OtherMove mayHold s { s with sw := v }
  | device (b : Bool) : OtherMove mayHold s { s with devOpen := b }

/-! ### Every step is one of these moves -/

theorem tickSample_move {readOk : Bool} {s : State} (live : s.halted = false) (run : s.running = true)
    (ht : s.tick = .idle) : TickMove s (tickSample readOk s) := by
  unfold tickSample
  split_ifs
  · exact .sampled live run ht
  · exact .unread live ht _ (.inl rfl)
  · exact .unread live ht _ (.inr rfl)

theorem tickLookup_move {v : Byte} {s : State} (ht : s.tick = .sampled v) : TickMove s (tickLookup v s) := by
  unfold tickLookup
  split
  · exact .ended s.last v ht
  · split
    · exact .ended v v ht
    · split
      · exact .still
      · exact .dispatched v _ ht

theorem tickReturn_move {h : Byte} {ok : Bool} {s : State} (ht : s.tick = .returned h ok) :
    TickMove s (tickReturn h ok s) := by
  unfold tickReturn
  split
  · exact .handled h ok ht
  · exact .failed h ok ht

theorem polltStep_move (readOk : Bool) (s : State) : TickMove s (polltStep readOk s) := by
  unfold polltStep
  split
  · exact .still
  · next live =>
    split
    · next ht =>
      split
      · next run =>
        rw [Bool.and_eq_true] at run
        exact tickSample_move (by simpa using live) run.1 ht
      · exact .still
    · next ht => exact tickLookup_move ht
    · exact .still
    · next ht => exact tickReturn_move ht

section
variable {mayHold : Ctx → Prop} {c : Ctx}

theorem registerOp_move {key : Option Nat} (hkey : ∀ a, key = some a → a ≤ 254) (h : Byte) (s : State) :
    OtherMove mayHold s (registerOp c key h s) := by
  cases key with
  | none => exact .answered _ _
  | some a => exact .registered c a h (hkey a rfl)

theorem setintOp_move (hc : mayHold c) (ms : Word32) (s : State) : OtherMove mayHold s (setintOp c ms s) := by
  unfold setintOp
  split
  · exact .answered _ _
  · next hms =>
    split
    · split
      · exact .held c _ hc (by simpa using hms)
      · exact .restarted c ms hms
    · exact .intervalSet c ms hms

theorem pollstartOp_move (s : State) : OtherMove mayHold s (pollstartOp c s) := by
  unfold pollstartOp
  split
  · exact .answered _ _
  · exact .started c

theorem pollstopOp_move (hc : mayHold c) (s : State) : OtherMove mayHold s (pollstopOp c s) := by
  unfold pollstopOp
  split
  · split
    · exact .held c _ hc (by simp)
    · next free => exact .stopped c (by simpa using free)
  · exact .answered _ _

theorem resume_move (s : State) : OtherMove mayHold s (resume c s) := by
  unfold resume
  split
  · exact .still
  · next w hw =>
    split
    · exact .still
    · next free =>
      simp only [Bool.or_eq_true, not_or, Bool.not_eq_true] at free
      cases w with
      | pollstop => exact .resumedStop c free.2
      | setint ms => exact .resumedRestart c ms hw

theorem atomicOp_move (hc : mayHold c) (i : Instr) (s : State) : OtherMove mayHold s (atomicOp c i s) := by
  cases i
  case regs index h => exact registerOp_move (fun _ => singleKey_le) h s
  case regc h indices => exact registerOp_move (fun _ => comboKey_le) h s
  case setint ms => exact setintOp_move hc ms s
  case pollstart => exact pollstartOp_move s
  case pollstop => exact pollstopOp_move hc s
  case sdisp => exact .answered _ _
  case sbl => exact .answered _ _
  all_goals exact .still

theorem overlapped_move {s : State} (hc : s.halted = false → mayHold c) (i : Instr) :
    OtherMove mayHold s (overlapped c i s) := by
  unfold overlapped
  split
  · exact .answered _ _
  · next live =>
    split
    · split
      · exact .turnedAway c _ _
      · exact .still
      · exact atomicOp_move (hc (by simpa using live)) i s
    · exact .answered _ _

theorem expiryCollides_move (s : State) : OtherMove mayHold s (expiryCollides s) := by
  unfold expiryCollides
  split
  · split
    · exact .collided _
    · exact .still
  · exact .still

end

/-- R276, R323: the handler context is held only while it is live. -/
abbrev Holdable (s : State) (c : Ctx) : Prop := c = .handler → handlerLive s = true

/-- R323: a context that may deliver a packet to a live block may be held by it. -/
theorem holdable_of_packet {c : Ctx} {s : State} (h : packetBreach c s = none) (live : s.halted = false) :
    Holdable s c := by
  rintro rfl
  unfold packetBreach at h
  rw [live, if_neg Bool.false_ne_true] at h
  split at h
  · cases h
  · dsimp only at h
    split at h
    · assumption
    · cases h

/-- A step of anybody but POLLT that the activity in flight survives. -/
theorem act_otherMove {a : Act} {s t : State} (ha : isPollt a = false) (h : act a s = .ok t) :
    OtherMove (Holdable s) s t := by
  cases a with
  | packet c bytes =>
    simp only [act] at h
    split at h
    · cases h
    · next hb =>
      split at h <;> cases h
      · exact overlapped_move (holdable_of_packet hb) _
      · exact .answered _ _
  | pollt ok => cases ha
  | hret ok =>
    simp only [act] at h
    split at h
    · next ht =>
      split_ifs at h with hbusy
      cases h
      simp only [contextBusy, waitOf, Bool.or_eq_true, not_or] at hbusy
      exact .returned _ ok ht (by simpa using hbusy.1)
    · cases h
  | offt => cases h; exact expiryCollides_move s
  | resume c => cases h; exact resume_move s
  | switches v => cases h; exact .switched v
  | openDevice ok => cases h; exact .device _
  | closeDevice =>
    simp only [act] at h
    split_ifs at h
    cases h
    exact .device false
  | reset p => cases h

/-- A step that the activity in flight survives. -/
theorem act_move {a : Act} {s t : State} (h : act a s = .ok t) : TickMove s t ∨ OtherMove (Holdable s) s t := by
  cases a with
  | pollt ok => cases h; exact .inl (polltStep_move ok s)
  | packet => exact .inr (act_otherMove rfl h)
  | hret => exact .inr (act_otherMove rfl h)
  | offt => exact .inr (act_otherMove rfl h)
  | resume => exact .inr (act_otherMove rfl h)
  | switches => exact .inr (act_otherMove rfl h)
  | openDevice => exact .inr (act_otherMove rfl h)
  | closeDevice => exact .inr (act_otherMove rfl h)
  | reset => exact .inr (act_otherMove rfl h)

/-! ### Steps between activities -/

/-- How a step can reach a next state: there is none to take, or its turn is a packet that runs an operation, a packet
that decodes to none, an expiry, or one of the atomic steps. -/
inductive Stepped (s t : State) : Prop where
  | waits (h : t = s)
  | runs (turn : Turn) (rest : List Turn) (hs : s.agenda = turn :: rest) (c : Ctx) (i : Instr)
      (free : packetBreach c (beginTurn turn rest s) = none)
      (h : exec i { beginTurn turn rest s with issuer := c } = .next t)
  | refuses (turn : Turn) (rest : List Turn) (c : Ctx) (e : DecodeError)
      (h : t = refusePacket c e (beginTurn turn rest s))
  | expires (turn : Turn) (rest : List Turn) (hs : s.agenda = turn :: rest)
      (h : expire (beginTurn turn rest s) = .next t)
  | acts (turn : Turn) (rest : List Turn) (hs : s.agenda = turn :: rest)
      (h : conclude (act turn.act (beginTurn turn rest s)) = .next t)

theorem step_stepped {s t : State} (h : step s = .next t) : Stepped s t := by
  unfold step at h
  split at h
  · cases h
    exact .waits rfl
  · next turn rest hs =>
    unfold takeTurn at h
    split at h
    case h_1 c bytes _ =>
      unfold takePacket at h
      split at h
      · cases h
      · next free =>
        split at h
        · next i _ => exact .runs turn rest hs c i free h
        · next e _ =>
          cases h
          exact .refuses turn rest c e rfl
    case h_2 => exact .expires turn rest hs h
    all_goals
      next ha => exact .acts turn rest hs (by rw [ha]; exact h)

end Sys2Proof.Machine
end

section
/-!
The reset (R300, R318) and the invariant of the block: it holds at reset, every move of another agent keeps the part of
it that also holds inside an activity (`Sound`), and so does every event and register write of an activity.
-/

namespace Sys2Proof.Machine

/-! ### The reset -/

theorem reset_eq_resetBlock : State.reset = resetBlock true State.reset := rfl

/-- Settles O47: the step is the reset of the block, whose fields are read off. -/
theorem resetRestoresRegisters : Obligations.ResetRestoresRegisters := by
  intro s powerOn w rest h
  have hstep : step s = .next (resetBlock powerOn (beginTurn ⟨.reset powerOn, w⟩ rest s)) := by
    unfold step
    rw [h]
    rfl
  refine ⟨_, hstep, ?_⟩
  simp [resetBlock, State.reset, swIdle, intervalDefault, Memory.read]

/-- The set-DDRAM-address command of P0 carries its address in bits 6:0. -/
theorem p0_addresses : Config.p0.AddressesOk := by
  have ddram : ∀ a < 80, ((Config.p0.cmdSetDdram ||| BitVec.ofNat 8 a) &&& 0x7F).toNat = a := by decide
  refine ⟨fun a ha b hb h => ?_, by decide, by decide⟩
  rw [← ddram a ha, ← ddram b hb, h]

theorem p0_ok : Config.p0.Ok where
  pins := by decide
  delays := by decide
  initial := by decide
  addresses := p0_addresses
  masks := by decide

/-- The invariant holds after a reset, under any parameters that meet R6. -/
theorem resetBlock_inv {s : State} (hc : s.cfg.Ok) (powerOn : Bool) : BlockInv (resetBlock powerOn s) where
  config := hc
  lcd := by simp [LcdLegal, resetBlock, State.reset, ddramWidth, maxLines]
  poller := by simp [PollerLegal, resetBlock, State.reset, intervalDefault, Memory.wf, Memory.risingFrom, Memory.read]
  ticks := by simp [TickLegal, resetBlock, State.reset, handlerPhase]
  flight := by simp [FlightLegal, resetBlock, State.reset]

/-- Settles O48: the reset state is the state a reset leaves, and P0 meets R6. -/
theorem resetMeetsInvariant : Obligations.ResetMeetsInvariant := by
  unfold Obligations.ResetMeetsInvariant
  rw [reset_eq_resetBlock]
  exact resetBlock_inv p0_ok true

/-! ### The part of the invariant that also holds inside an activity -/

/-- The invariant without its clauses on `SEQ` and `EXPBUSY`. -/
structure Sound (s : State) : Prop where
  config : s.cfg.Ok
  lcd    : LcdLegal s
  poller : PollerLegal s
  ticks  : TickLegal s
  halts  : s.halted = true → s.fault ≠ none ∧ s.tick = .idle
  busy   : s.tickBusy = true → s.tick = .idle → s.halted = true

theorem BlockInv.sound {s : State} (h : BlockInv s) : Sound s where
  config := h.config
  lcd := h.lcd
  poller := h.poller
  ticks := h.ticks
  halts := h.flight.2.2.1
  busy := h.flight.2.2.2

/-- The rest of the invariant: between activities nothing is in flight unless the block is halted. -/
theorem Sound.blockInv {s : State} (h : Sound s) (hseq : s.seq ≠ .idle → s.halted = true)
    (hexp : s.expBusy = true → s.halted = true) : BlockInv s where
  config := h.config
  lcd := h.lcd
  poller := h.poller
  ticks := h.ticks
  flight := ⟨hseq, hexp, h.halts, h.busy⟩

/-- R221: no registration is at address 255. -/
theorem read_register_255 {m : Memory} {a : Nat} {h : Byte} (ha : a ≤ 254) (hm : Memory.read m 255 = none) :
    Memory.read (Memory.register m a h) 255 = none := by
  rw [read_register, if_neg (by omega), hm]

/-- With no tick in flight the lock is free and no handler's operation is held. -/
theorem tickLegal_idle {s : State} (ht : s.tick = .idle) : TickLegal s ↔ s.lock = false ∧ s.handlerWait = none := by
  simp [TickLegal, ht, handlerPhase, handlerLive]

theorem TickMove.sound {s t : State} (m : TickMove s t) (h : Sound s) : Sound t := by
  obtain ⟨hlock, hflight, hwait⟩ := h.ticks
  cases m with
  | still => exact h
  | sampled live run ht =>
    obtain ⟨free, unheld⟩ := (tickLegal_idle ht).mp h.ticks
    exact { h with
      ticks := ⟨free, fun _ => ⟨rfl, run⟩, absurd unheld⟩
      halts := fun k => absurd (live.symm.trans k) Bool.false_ne_true
      busy := fun _ k => nomatch k }
  | unread live ht r hr =>
    have idle := (tickLegal_idle ht).mp h.ticks
    rcases hr with rfl | rfl <;> exact { h with
        ticks := (tickLegal_idle rfl).mpr idle
        halts := fun k => absurd (live.symm.trans k) Bool.false_ne_true
        busy := fun k => nomatch k }
  | ended v w ht =>
    simp only [ht, handlerPhase, handlerLive, Bool.false_eq_true, imp_false, not_not] at hlock hwait
    exact { h with
      ticks := (tickLegal_idle rfl).mpr ⟨hlock, hwait⟩
      halts := fun k => ⟨(h.halts k).1, rfl⟩
      busy := fun k => nomatch k }
  | dispatched v k ht =>
    exact { h with
      ticks := ⟨rfl, fun _ => hflight (by simp [ht]), fun _ => rfl⟩
      halts := fun k => nomatch ht.symm.trans (h.halts k).2
      busy := fun _ k => nomatch k }
  | handled k ok ht =>
    simp only [ht, handlerLive, Bool.false_eq_true, imp_false, not_not] at hwait
    exact { h with
      ticks := (tickLegal_idle rfl).mpr ⟨rfl, hwait⟩
      halts := fun k => ⟨(h.halts k).1, rfl⟩
      busy := fun k => nomatch k }
  | failed k ok ht =>
    simp only [ht, handlerLive, Bool.false_eq_true, imp_false, not_not] at hwait
    exact { h with
      ticks := (tickLegal_idle rfl).mpr ⟨rfl, hwait⟩
      halts := fun _ => ⟨raiseFault_ne_none _ _ _, rfl⟩
      busy := fun _ _ => rfl }

/-- A context is let go. -/
theorem Sound.release {s : State} (h : Sound s) (c : Ctx) : Sound (setWait c none s) := by
  obtain ⟨hinterval, happ, hhandler, hmap⟩ := h.poller
  obtain ⟨hlock, hflight, -⟩ := h.ticks
  cases c with
  | app => exact { h with poller := ⟨hinterval, nofun, hhandler, hmap⟩ }
  | handler => exact { h with
      poller := ⟨hinterval, happ, nofun, hmap⟩
      ticks := ⟨hlock, hflight, absurd rfl⟩ }

theorem Sound.restart {s : State} (h : Sound s) (c : Ctx) {ms : Word32} (hms : ms ≠ 0) :
    Sound (restartPoller c ms s) := by
  obtain ⟨-, hpoller⟩ := h.poller
  obtain ⟨hlock, hflight, hwait⟩ := h.ticks
  exact { h with
    poller := ⟨hms, hpoller⟩
    ticks := ⟨hlock, fun k => ⟨(hflight k).1, rfl⟩, hwait⟩ }

/-- R215: the poller is stopped only while no tick is in flight. -/
theorem Sound.stop {s : State} (h : Sound s) (c : Ctx) (free : s.tickBusy = false) : Sound (stopPoller c s) := by
  obtain ⟨hlock, hflight, hwait⟩ := h.ticks
  exact { h with
    ticks := ⟨hlock, fun k => absurd (free.symm.trans (hflight k).1) Bool.false_ne_true, hwait⟩ }

/-- A held SETINT carries a legal interval. -/
theorem Sound.held_ne_zero {s : State} (h : Sound s) {c : Ctx} {ms : Word32} (hw : waitOf c s = some (.setint ms)) :
    ms ≠ 0 := by
  rintro rfl
  obtain ⟨-, happ, hhandler, -⟩ := h.poller
  cases c with
  | app => exact happ hw
  | handler => exact hhandler hw

theorem OtherMove.sound {s t : State} (m : OtherMove (Holdable s) s t) (h : Sound s) : Sound t := by
  obtain ⟨hinterval, happ, hhandler, hwf, hkey⟩ := h.poller
  obtain ⟨hlock, hflight, hwait⟩ := h.ticks
  cases m with
  | still => exact h
  | answered c r => exact { h with }
  | registered c a k ha =>
    exact { h with poller := ⟨hinterval, happ, hhandler, wf_register hwf (by omega), read_register_255 ha hkey⟩ }
  | held c w hc hw =>
    have legal : some w ≠ some (.setint 0) := by simpa using hw
    cases c with
    | app => exact { h with poller := ⟨hinterval, legal, hhandler, hwf, hkey⟩ }
    | handler => exact { h with
        poller := ⟨hinterval, happ, legal, hwf, hkey⟩
        ticks := ⟨hlock, hflight, fun _ => hc rfl⟩ }
  | intervalSet c ms hms => exact { h with poller := ⟨hms, happ, hhandler, hwf, hkey⟩ }
  | started c => exact { h with ticks := ⟨hlock, fun k => ⟨(hflight k).1, rfl⟩, hwait⟩ }
  | restarted c ms hms => exact h.restart c hms
  | stopped c free => exact h.stop c free
  | resumedStop c free => exact (h.release c).stop c (by cases c <;> exact free)
  | resumedRestart c ms hw => exact (h.release c).restart c (h.held_ne_zero hw)
  | turnedAway c op inFlight => exact { h with halts := fun k => ⟨raiseFault_ne_none _ _ _, (h.halts k).2⟩ }
  | collided inFlight => exact { h with halts := fun k => ⟨raiseFault_ne_none _ _ _, (h.halts k).2⟩ }
  | returned k ok ht free => exact { h with
      ticks := ⟨by rw [ht] at hlock; exact hlock, fun _ => hflight (by simp [ht]), absurd free⟩
      halts := fun k => nomatch ht.symm.trans (h.halts k).2
      busy := fun _ k => nomatch k }
  | switched v => exact { h with }
  | device b => exact { h with }

/-- What no step of another agent does: end a halt, or make an expiry out of nothing. -/
theorem TickMove.flight {s t : State} (m : TickMove s t) :
    (s.halted = true → t.halted = true) ∧ t.expBusy = s.expBusy := by
  cases m with
  | unread live ht r hr => rcases hr with rfl | rfl <;> exact ⟨id, rfl⟩
  | failed => exact ⟨fun _ => rfl, rfl⟩
  | _ => exact ⟨id, rfl⟩

theorem OtherMove.flight {s t : State} {mayHold : Ctx → Prop} (m : OtherMove mayHold s t) :
    t.halted = s.halted ∧ (t.expBusy = true → s.expBusy = true) := by
  cases m with
  | held c => cases c <;> exact ⟨rfl, id⟩
  | resumedStop c => cases c <;> exact ⟨rfl, id⟩
  | resumedRestart c => cases c <;> exact ⟨rfl, id⟩
  | collided => exact ⟨rfl, nofun⟩
  | _ => exact ⟨rfl, id⟩

/-- A step of another agent keeps the part of the invariant it can touch, ends no halt, and leaves no expiry in flight
that was not. -/
theorem act_sound {a : Act} {s t : State} (hr : act a s = .ok t) (h : Sound s) :
    Sound t ∧ (s.halted = true → t.halted = true) ∧ (t.expBusy = true → s.expBusy = true) := by
  rcases act_move hr with m | m
  · exact ⟨m.sound h, m.flight.1, fun k => m.flight.2 ▸ k⟩
  · exact ⟨m.sound h, fun k => m.flight.1.trans k, m.flight.2⟩

/-- Between activities every step but a packet and an expiry is such a step, or a reset. -/
theorem act_inv {a : Act} {s t : State} (h : BlockInv s) (hr : conclude (act a s) = .next t) : BlockInv t := by
  obtain ⟨hseq, hexp, -⟩ := h.flight
  rcases conclude_next.mp hr with hr | hr
  · obtain ⟨sound, halts, exp⟩ := act_sound hr h.sound
    exact sound.blockInv (fun k => halts (hseq ((act_ok_bystander hr).seq ▸ k))) (fun k => halts (hexp (exp k)))
  · obtain ⟨powerOn, -, rfl⟩ := act_ended hr
    exact resetBlock_inv h.config powerOn

/-! ### Inside an activity -/

theorem respond_inv {s : State} (h : BlockInv s) (c : Ctx) (r : Response) : BlockInv (respond c r s) := { h with }

/-- A stopped activity stopped in a state with `P`; a breach leaves none. -/
def StopIn (P : State → Prop) : Stop → Prop
  | .ended t => P t
  | .breach _ => True

/-- What holds while an activity of agent `a` is in flight. -/
structure Underway (a : Agent) (s : State) : Prop where
  sound  : Sound s
  live   : s.halted = false
  owner  : ∃ op n, s.seq = .busy a op n
  expiry : s.expBusy = true → a = .offt

theorem ownerOf_host {a : Agent} {s : State} (h : ∃ op n, s.seq = .busy a op n) (ha : a ≠ .offt) :
    ownerOf s = .host s.issuer := by
  obtain ⟨op, n, hs⟩ := h
  cases a with
  | offt => exact absurd rfl ha
  | _ => simp only [ownerOf, hs]

theorem ownerOf_offt {s : State} (h : ∃ op n, s.seq = .busy .offt op n) : ownerOf s = .expire := by
  obtain ⟨op, n, hs⟩ := h
  simp only [ownerOf, hs]

/-- R271: a failed access ends the activity and frees the sequencer. -/
theorem Underway.fails {a : Agent} {s : State} (h : Underway a s) {r : Raised}
    (hr : (∃ op n, r = .ioFault op n) ∨ ∃ op n, r = .deviceNotOpen op n) : BlockInv (raiseFault (ownerOf s) r s) := by
  have halts {p : Prop} (k : s.halted = true) : p := absurd (h.live.symm.trans k) Bool.false_ne_true
  have idle : (recordFault r { s with seq := .idle }).seq = .idle := rfl
  have recorded : Sound (recordFault r { s with seq := .idle }) := { h.sound with halts }
  by_cases ha : a = .offt
  · subst ha
    rw [ownerOf_offt h.owner]
    have hexp : BlockInv { recordFault r { s with seq := .idle } with expBusy := false } :=
      Sound.blockInv { recorded with } (absurd idle) nofun
    rcases hr with ⟨op, n, rfl⟩ | ⟨op, n, rfl⟩ <;> exact hexp
  · rw [ownerOf_host h.owner ha]
    have hhost : BlockInv (respond s.issuer (.fault (raisedCode r)) (recordFault r { s with seq := .idle })) :=
      respond_inv (recorded.blockInv (absurd idle) fun k => absurd (h.expiry k) ha) _ _
    rcases hr with ⟨op, n, rfl⟩ | ⟨op, n, rfl⟩ <;> exact hhost

theorem underway_woven (a : Agent) : Woven (fun _ => true) (Underway a) (StopIn BlockInv) where
  tested t _ := weaveAll_true t.weave
  event e s h := by
    obtain ⟨op, n, hs⟩ := h.owner
    exact { h with sound := { h.sound with }, owner := ⟨op, n + 1, by simp [hs, Seq.advance]⟩ }
  latch v s h := { h with sound := { h.sound with } }
  step b s _ h := by
    cases hr : act b s with
    | error e =>
      cases e with
      | breach f => trivial
      | ended t =>
        obtain ⟨powerOn, -, rfl⟩ := act_ended hr
        exact resetBlock_inv h.sound.config powerOn
    | ok t =>
      obtain ⟨sound, -, exp⟩ := act_sound hr h.sound
      have owner := (act_ok_bystander hr).seq ▸ h.owner
      simp only [Ends]
      split
      · next halted => exact sound.blockInv (fun _ => halted) (fun _ => halted)
      · next live => exact ⟨sound, by simpa using live, owner, fun k => h.expiry (exp k)⟩
  failed s h _ := Underway.fails (s := popSlot s) { h with sound := { h.sound with } } (.inl ⟨_, _, rfl⟩)
  closed s h _ := h.fails (.inr ⟨_, _, rfl⟩)

/-! ### The register writes of an activity -/

/-- A byte lies within a mask, bit by bit. -/
theorem and_not_eq_zero {reg mask : Byte} :
    reg &&& ~~~mask = 0 ↔ ∀ i < 8, reg.getLsbD i = true → mask.getLsbD i = true := by
  constructor
  · intro h i hi hr
    have := congrArg (·.getLsbD i) h
    simpa [hr, hi] using this
  · intro h
    apply BitVec.eq_of_getLsbD_eq
    intro i hi
    have := h i hi
    simp only [BitVec.getLsbD_and, BitVec.getLsbD_not]
    cases hr : reg.getLsbD i <;> simp_all

/-- R180 keeps a flag byte within its mask. -/
theorem putFlag_legal {reg flag mask : Byte} (hreg : reg &&& ~~~mask = 0) (hflag : flag &&& ~~~mask = 0) (on : Bool) :
    putFlag reg flag on &&& ~~~mask = 0 := by
  rw [and_not_eq_zero] at *
  intro i hi h
  cases on with
  | true =>
    simp only [putFlag, if_true, BitVec.getLsbD_or, Bool.or_eq_true] at h
    exact h.elim (hreg i hi) (hflag i hi)
  | false =>
    simp only [putFlag, Bool.false_eq_true, if_false, BitVec.getLsbD_and, Bool.and_eq_true] at h
    exact hreg i hi h.1

theorem emMask_flags (c : Config) : c.emS &&& ~~~c.emMask = 0 ∧ c.emId &&& ~~~c.emMask = 0 := by
  constructor <;> rw [and_not_eq_zero] <;> intro i _ h <;> simp [Config.emMask, h]

theorem dcMask_flags (c : Config) :
    c.dcD &&& ~~~c.dcMask = 0 ∧ c.dcC &&& ~~~c.dcMask = 0 ∧ c.dcB &&& ~~~c.dcMask = 0 := by
  refine ⟨?_, ?_, ?_⟩ <;> rw [and_not_eq_zero] <;> intro i _ h <;> simp [Config.dcMask, h]

theorem Underway.writeDc {a : Agent} {s : State} (h : Underway a s) {flag : Byte} (hf : flag &&& ~~~s.cfg.dcMask = 0)
    (on : Bool) : Underway a (flagDc flag on s) := by
  obtain ⟨haddr, hrow, hem, hdc, hfs⟩ := h.sound.lcd
  exact { h with sound := { h.sound with lcd := ⟨haddr, hrow, hem, putFlag_legal hdc hf on, hfs⟩ } }

theorem Underway.writeEm {a : Agent} {s : State} (h : Underway a s) {flag : Byte} (hf : flag &&& ~~~s.cfg.emMask = 0)
    (on : Bool) : Underway a (flagEm flag on s) := by
  obtain ⟨haddr, hrow, hem, hdc, hfs⟩ := h.sound.lcd
  exact { h with sound := { h.sound with lcd := ⟨haddr, hrow, putFlag_legal hem hf on, hdc, hfs⟩ } }

/-- INIT loads legal flag bytes (R6 d). -/
theorem Underway.load {a : Agent} {s : State} (h : Underway a s) :
    Underway a { s with fs := s.cfg.initFs } ∧ Underway a { s with dc := s.cfg.initDc } ∧
      Underway a { s with em := s.cfg.initEm } ∧ Underway a (markInit s) := by
  obtain ⟨haddr, hrow, hem, hdc, hfs⟩ := h.sound.lcd
  obtain ⟨-, -, fs, dc, em⟩ := h.sound.config.initial
  exact ⟨{ h with sound := { h.sound with lcd := ⟨haddr, hrow, hem, hdc, fs⟩ } },
    { h with sound := { h.sound with lcd := ⟨haddr, hrow, hem, dc, hfs⟩ } },
    { h with sound := { h.sound with lcd := ⟨haddr, hrow, em, hdc, hfs⟩ } }, { h with sound := { h.sound with } }⟩

theorem underway_keepsAddr (a : Agent) : KeepsAddr (Underway a) := fun _ _ hv h =>
  { h with sound := { h.sound with lcd := ⟨hv, h.sound.lcd.2⟩ } }

theorem underway_keepsRow (a : Agent) : KeepsRow (Underway a) := fun _ _ hv h =>
  { h with sound := { h.sound with lcd := ⟨h.sound.lcd.1, hv, h.sound.lcd.2.2⟩ } }

theorem underway_kept {a : Agent} (ha : a ≠ .offt) : Kept (Underway a) (StopIn BlockInv) where
  addr := underway_keepsAddr a
  row := underway_keepsRow a
  dc s h := h.writeDc (dcMask_flags s.cfg).1 true
  display _ _ h := { h with sound := { h.sound with } }
  backlight _ _ h := { h with sound := { h.sound with } }
  cancel _ h := { h with sound := { h.sound with } }
  hang _ h hb := absurd (h.expiry hb) ha
  init _ h := h.load
  arm _ _ h := { h with sound := { h.sound with } }
  dcdOff s h := h.writeDc (dcMask_flags s.cfg).1 false
  dcc on s h := h.writeDc (dcMask_flags s.cfg).2.1 on
  dcb on s h := h.writeDc (dcMask_flags s.cfg).2.2 on
  ems on s h := h.writeEm (emMask_flags s.cfg).1 on
  emid on s h := h.writeEm (emMask_flags s.cfg).2 on

/-! ### Whole steps -/

theorem agentOf_ne_offt (c : Ctx) : agentOf c ≠ .offt := by cases c <;> simp [agentOf]

/-- A host operation's end frees the sequencer, and there is no expiry in flight. -/
theorem Underway.finish {a : Agent} {s : State} (h : Underway a s) (ha : a ≠ .offt) (v : Byte) :
    BlockInv (finishOp v s) :=
  Sound.blockInv { h.sound with } (absurd rfl) fun k => absurd (h.expiry k) ha

theorem exec_inv {i : Instr} {s t : State} (h : BlockInv s) (hc : s.halted = false → Holdable s s.issuer)
    (hr : exec i s = .next t) : BlockInv t := by
  have ha := agentOf_ne_offt s.issuer
  obtain ⟨hseq, hexp, -⟩ := h.flight
  have absent {p : Prop} (live : s.halted = false) (k : s.halted = true) : p :=
    absurd (live.symm.trans k) Bool.false_ne_true
  have start (live : s.halted = false) (op : OpName) :
      Underway (agentOf s.issuer) { s with seq := .busy (agentOf s.issuer) op 0 } :=
    ⟨{ h.sound with }, live, ⟨op, 0, rfl⟩, fun k => absent live (hexp k)⟩
  rcases exec_reached (underway_woven _) (underway_kept ha) hr (fun live _ => start live) with
    ⟨r, rfl⟩ | ⟨live, rfl⟩ | ⟨live, op, inFlight, a, n, hs, rfl⟩ | ⟨-, -, hq⟩ | ⟨-, -, u, v, hu, rfl⟩
  · exact respond_inv h _ _
  · have m := atomicOp_move (hc live) i s
    refine (m.sound h.sound).blockInv (fun k => ?_) (fun k => ?_)
    · exact absent live (hseq ((atomicOp_bystander _ _ _).seq ▸ k))
    · exact absent live (hexp (m.flight.2 k))
  · exact absent live (hseq (by simp [hs]))
  · exact hq
  · exact hu.finish ha v

theorem expire_inv {s t : State} (h : BlockInv s) (hr : expire s = .next t) : BlockInv t := by
  obtain ⟨hseq, -, -⟩ := h.flight
  have keep := underway_woven .offt
  rcases expire_next hr keep (underway_keepsAddr _) (underway_keepsRow _)
      (fun s h => h.writeDc (dcMask_flags s.cfg).1 false) (fun _ _ h => { h with sound := { h.sound with } })
      (fun _ _ h => { h with sound := { h.sound with } })
      (fun _ live _ => ⟨{ h.sound with }, live, ⟨_, _, rfl⟩, fun _ => rfl⟩) with
    rfl | ⟨live, a, op, n, hs, rfl⟩ | hq | ⟨u, hu, rfl⟩
  · exact h
  · exact absurd (live.symm.trans (hseq (by simp [hs]))) Bool.false_ne_true
  · exact hq
  · exact Sound.blockInv { hu.sound with } (absurd rfl) nofun

/-- Settles O49: an operation or expiry is followed through `Underway`, every other step through its move. -/
theorem stepKeepsInvariant : Obligations.StepKeepsInvariant := by
  intro s t h hr
  have begun (turn : Turn) (rest : List Turn) : BlockInv (beginTurn turn rest s) := { h with }
  cases step_stepped hr with
  | waits ht => exact ht ▸ h
  | runs turn rest _ c i free hr =>
    exact exec_inv (s := { beginTurn turn rest s with issuer := c }) { begun turn rest with }
      (fun live => holdable_of_packet free live) hr
  | refuses turn rest c e ht => exact ht ▸ respond_inv (begun turn rest) _ _
  | expires turn rest _ hr => exact expire_inv (begun turn rest) hr
  | acts turn rest _ hr => exact act_inv (begun turn rest) hr

end Sys2Proof.Machine
end

section
/-!
What no step but a reset takes back: the first fault (R32, R271) and the registered handlers (R28); and what nobody but
POLLT writes: `LAST` and `LOCK` (R34).
-/

namespace Sys2Proof.Machine

/-- `t` still has the fault and the handlers recorded in `s`, and, where POLLT takes no step, `LAST` and `LOCK`. -/
def Remembers (ticks : Bool) (s t : State) : Prop :=
  (∀ f, s.fault = some f → t.fault = some f) ∧
    (∀ a h, Memory.read s.map a = some h → Memory.read t.map a = some h) ∧
    (ticks = false → t.last = s.last ∧ t.lock = s.lock)

section
variable {ticks : Bool} {s t u : State}

theorem Remembers.silent (hf : t.fault = s.fault) (hm : t.map = s.map)
    (ht : ticks = false → t.last = s.last ∧ t.lock = s.lock) : Remembers ticks s t :=
  ⟨fun _ h => hf.trans h, fun _ _ h => hm ▸ h, ht⟩

theorem Remembers.same (hf : t.fault = s.fault) (hm : t.map = s.map) (hl : t.last = s.last) (hk : t.lock = s.lock) :
    Remembers ticks s t := .silent hf hm fun _ => ⟨hl, hk⟩

theorem Remembers.trans (h : Remembers ticks s t) (k : Remembers ticks t u) : Remembers ticks s u := by
  obtain ⟨hf, hm, ht⟩ := h
  obtain ⟨kf, km, kt⟩ := k
  exact ⟨fun f h => kf f (hf f h), fun a b h => km a b (hm a b h),
    fun h => ⟨(kt h).1.trans (ht h).1, (kt h).2.trans (ht h).2⟩⟩

/-- R28: a registration leaves the handlers that are there. -/
theorem read_register_kept {m : Memory} {a b : Nat} {h k : Byte} (hm : Memory.read m b = some k) :
    Memory.read (Memory.register m a h) b = some k := by
  rw [read_register, if_neg, hm]
  rintro ⟨rfl, free⟩
  exact nomatch free.symm.trans hm

theorem raiseFault_remembers (who : Raiser) (r : Raised) (s : State) : Remembers ticks s (raiseFault who r s) := by
  refine ⟨fun f hf => by rw [raiseFault_fault, hf]; rfl, ?_, ?_⟩
  · rw [raiseFault_frame]
    exact fun _ _ h => h
  · rw [raiseFault_frame]
    exact fun _ => ⟨rfl, rfl⟩

theorem Remembers.raise (h : Remembers ticks s t) (who : Raiser) (r : Raised) :
    Remembers ticks s (raiseFault who r t) := h.trans (raiseFault_remembers who r t)

theorem TickMove.remembers (m : TickMove s t) : Remembers true s t := by
  cases m with
  | unread =>
    apply Remembers.raise
    exact .silent rfl rfl nofun
  | failed =>
    apply Remembers.raise
    exact .silent rfl rfl nofun
  | _ => exact .silent rfl rfl nofun

theorem OtherMove.remembers {mayHold : Ctx → Prop} (m : OtherMove mayHold s t) : Remembers ticks s t := by
  cases m with
  | registered => exact ⟨fun _ h => h, fun _ _ h => read_register_kept h, fun _ => ⟨rfl, rfl⟩⟩
  | held c => cases c <;> exact .same rfl rfl rfl rfl
  | resumedStop c => cases c <;> exact .same rfl rfl rfl rfl
  | resumedRestart c => cases c <;> exact .same rfl rfl rfl rfl
  | turnedAway => exact raiseFault_remembers _ _ _
  | collided =>
    apply Remembers.raise
    exact .same rfl rfl rfl rfl
  | _ => exact .same rfl rfl rfl rfl

/-- The steps that are no reset, and none of POLLT's where it takes none. -/
def remembered (ticks : Bool) (a : Act) : Bool := !isReset a && (ticks || !isPollt a)

theorem act_remembers {a : Act} (ha : remembered ticks a = true) (h : act a s = .ok t) : Remembers ticks s t := by
  cases ticks with
  | true => exact (act_move h).elim TickMove.remembers OtherMove.remembers
  | false =>
    simp only [remembered, Bool.false_or, Bool.and_eq_true, Bool.not_eq_true'] at ha
    exact (act_otherMove ha.2 h).remembers

/-- Without a reset no step of another agent ends the activity in flight. -/
theorem act_not_ended {a : Act} (ha : isReset a = false) : act a s ≠ .error (.ended t) := by
  intro h
  obtain ⟨powerOn, rfl, -⟩ := act_ended h
  cases ha

end

/-- What holds of the states of an activity that began in `s`. -/
def RemembersUnder (ticks : Bool) (s t : State) : Prop :=
  weaveAll (remembered ticks) t.weave = true ∧ Remembers ticks s t

theorem weaveAll_tail {test : Act → Bool} {w : List Slot} (h : weaveAll test w = true) :
    weaveAll test w.tail = true := by
  cases w with
  | nil => rfl
  | cons slot rest =>
    rw [weaveAll, List.all_cons, Bool.and_eq_true] at h
    exact h.2

theorem remembers_woven (ticks : Bool) (s : State) :
    Woven (remembered ticks) (RemembersUnder ticks s) (StopIn (Remembers ticks s)) where
  tested _ h := h.1
  event _ _ h := ⟨weaveAll_tail h.1, h.2⟩
  latch _ _ h := h
  step a t ha h := by
    cases hr : act a t with
    | error e =>
      cases e with
      | breach f => trivial
      | ended u =>
        rw [remembered, Bool.and_eq_true, Bool.not_eq_true'] at ha
        exact absurd hr (act_not_ended ha.1)
    | ok u =>
      have hu : RemembersUnder ticks s u :=
        ⟨(act_ok_bystander hr).weave ▸ h.1, h.2.trans (act_remembers ha hr)⟩
      simp only [Ends]
      split
      · exact hu.2
      · exact hu
  failed t h _ := Remembers.raise (t := popSlot t) h.2 _ _
  closed _ h _ := h.2.raise _ _

/-- No register write of an operation touches these records. -/
theorem remembers_kept (ticks : Bool) (s : State) : Kept (RemembersUnder ticks s) (StopIn (Remembers ticks s)) where
  addr _ _ _ h := h
  row _ _ _ h := h
  dc _ h := h
  display _ _ h := h
  backlight _ _ h := h
  cancel _ h := h
  hang _ h _ := h.2
  init _ h := ⟨h, h, h, h⟩
  arm _ _ h := h
  dcdOff _ h := h
  dcc _ _ h := h
  dcb _ _ h := h
  ems _ _ h := h
  emid _ _ h := h

theorem exec_remembers {ticks : Bool} {i : Instr} {s t : State} (hw : weaveAll (remembered ticks) s.weave = true)
    (h : exec i s = .next t) : Remembers ticks s t := by
  rcases exec_reached (remembers_woven ticks s) (remembers_kept ticks s) h
      (fun _ _ _ => ⟨hw, .same rfl rfl rfl rfl⟩) with
    ⟨r, rfl⟩ | ⟨-, rfl⟩ | ⟨-, op, inFlight, a, n, -, rfl⟩ | ⟨-, -, hq⟩ | ⟨-, -, u, v, hu, rfl⟩
  · exact .same rfl rfl rfl rfl
  · exact (atomicOp_move (mayHold := fun _ => True) trivial i s).remembers
  · exact raiseFault_remembers _ _ _
  · exact hq
  · exact hu.2

theorem expire_remembers {ticks : Bool} {s t : State} (hw : weaveAll (remembered ticks) s.weave = true)
    (h : expire s = .next t) : Remembers ticks s t := by
  have k := remembers_kept ticks s
  rcases expire_next h (remembers_woven ticks s) k.addr k.row k.dcdOff k.display k.backlight
      (fun _ _ _ => ⟨hw, .same rfl rfl rfl rfl⟩) with rfl | ⟨-, a, op, n, -, rfl⟩ | hq | ⟨u, hu, rfl⟩
  · exact .same rfl rfl rfl rfl
  · apply Remembers.raise
    exact .same rfl rfl rfl rfl
  · exact hq
  · exact hu.2

/-- A step whose turn is, and weaves in, none of the steps ruled out. -/
theorem step_remembers {ticks : Bool} {s t : State}
    (hs : ∀ turn rest, s.agenda = turn :: rest →
      remembered ticks turn.act = true ∧ weaveAll (remembered ticks) turn.weave = true)
    (h : step s = .next t) : Remembers ticks s t := by
  cases step_stepped h with
  | waits ht => exact ht ▸ .same rfl rfl rfl rfl
  | runs turn rest ha c i _ hr =>
    exact exec_remembers (s := { beginTurn turn rest s with issuer := c }) (hs turn rest ha).2 hr
  | refuses turn rest c e ht => exact ht ▸ .same rfl rfl rfl rfl
  | expires turn rest ha hr => exact expire_remembers (s := beginTurn turn rest s) (hs turn rest ha).2 hr
  | acts turn rest ha hr =>
    have hact := (hs turn rest ha).1
    rcases conclude_next.mp hr with hr | hr
    · exact act_remembers (s := beginTurn turn rest s) hact hr
    · rw [remembered, Bool.and_eq_true, Bool.not_eq_true'] at hact
      exact absurd hr (act_not_ended hact.1)

/-! ### The statements -/

theorem noReset_eq_remembered (w : List Slot) : noReset w = weaveAll (remembered true) w := by
  have htest : remembered true = fun a => !isReset a := by
    funext a
    simp [remembered]
  rw [noReset, htest]

/-- A turn without a reset, POLLT's steps being allowed. -/
theorem remembered_of_noReset {s : State} (h : nextNoReset s = true) (turn : Turn) (rest : List Turn)
    (hs : s.agenda = turn :: rest) :
    remembered true turn.act = true ∧ weaveAll (remembered true) turn.weave = true := by
  rw [← noReset_eq_remembered]
  simpa [nextNoReset, hs, Turn.noReset, remembered] using h

/-- A turn without a reset and without a step of POLLT. -/
theorem remembered_of_noPollt {turn : Turn} (h : turn.noReset = true) (ha : isPollt turn.act = false)
    (hw : weaveAll (fun a => !isPollt a) turn.weave = true) :
    remembered false turn.act = true ∧ weaveAll (remembered false) turn.weave = true := by
  simp only [Turn.noReset, noReset, weaveAll, List.all_eq_true, Bool.and_eq_true] at h hw ⊢
  refine ⟨by simpa [remembered, ha] using h.1, fun slot hslot a hmem => ?_⟩
  rw [remembered, Bool.and_eq_true, Bool.false_or]
  exact ⟨h.2 slot hslot a hmem, hw slot hslot a hmem⟩

/-- Settles O50: the fault is among what a step remembers. -/
theorem firstFaultIsSticky : Obligations.FirstFaultIsSticky := by
  intro s t f hf hn h
  exact (step_remembers (remembered_of_noReset hn) h).1 f hf

/-- Settles O51: the handlers are among what a step remembers. -/
theorem registrationsAreKept : Obligations.RegistrationsAreKept := by
  intro s t a k hk hn h
  exact (step_remembers (remembered_of_noReset hn) h).2.1 a k hk

/-- Settles O54: where POLLT takes no step, `LAST` and `LOCK` are among what a step remembers. -/
theorem lastAndLockOnlyByTick : Obligations.LastAndLockOnlyByTick := by
  intro s t turn rest hs hn ha hw h
  refine (step_remembers (ticks := false) (fun turn' rest' hs' => ?_) h).2.2 rfl
  obtain ⟨rfl, -⟩ := List.cons.inj (hs.symm.trans hs')
  exact remembered_of_noPollt hn ha hw

end Sys2Proof.Machine
end

section
/-!
The driver-level operations and the session (R29, R34, R311): no operation but SDISP, SBL, SWRITE and SWRITET writes the
session's flags or its timer, whatever is woven into it.
-/

namespace Sys2Proof.Machine

open Sys2Proof.Claims

/-- The session's flags and timer are as they were, but that the timer may have elapsed or been cancelled. -/
def SessionUntouched (s t : State) : Prop :=
  t.displayOn = s.displayOn ∧ t.backlightOn = s.backlightOn ∧ t.timeout = s.timeout ∧
    (t.timeoutActive = true → s.timeoutActive = true)

theorem SessionUntouched.refl (s : State) : SessionUntouched s s := ⟨rfl, rfl, rfl, id⟩

theorem SessionUntouched.trans {s t u : State} (h : SessionUntouched s t) (k : SessionUntouched t u) :
    SessionUntouched s u := by
  obtain ⟨hd, hb, ht, ha⟩ := h
  obtain ⟨kd, kb, kt, ka⟩ := k
  exact ⟨kd.trans hd, kb.trans hb, kt.trans ht, fun p => ha (ka p)⟩

theorem raiseFault_sessionUntouched (who : Raiser) (r : Raised) (s : State) :
    SessionUntouched s (raiseFault who r s) := by
  rw [raiseFault_frame]
  exact .refl s

theorem TickMove.timeoutActive {s t : State} (m : TickMove s t) : t.timeoutActive = s.timeoutActive := by
  cases m with
  | unread live ht r => rw [raiseFault_frame]
  | failed => rfl
  | _ => rfl

theorem OtherMove.timeoutActive {mayHold : Ctx → Prop} {s t : State} (m : OtherMove mayHold s t)
    (ht : t.timeoutActive = true) : s.timeoutActive = true := by
  cases m with
  | held c => cases c <;> exact ht
  | resumedStop c => cases c <;> exact ht
  | resumedRestart c => cases c <;> exact ht
  | collided => cases ht
  | _ => exact ht

theorem act_sessionUntouched {a : Act} {s t : State} (h : act a s = .ok t) : SessionUntouched s t := by
  have hb := act_ok_bystander h
  refine ⟨hb.displayOn, hb.backlightOn, hb.timeout, fun ht => ?_⟩
  exact (act_move h).elim (fun m => m.timeoutActive ▸ ht) (·.timeoutActive ht)

theorem sessionUntouched_woven (s : State) :
    Woven (fun a => !isReset a) (fun t => noReset t.weave = true ∧ SessionUntouched s t)
      (StopIn (SessionUntouched s)) where
  tested _ h := h.1
  event _ _ h := ⟨weaveAll_tail h.1, h.2⟩
  latch _ _ h := h
  step a t ha h := by
    cases hr : act a t with
    | error e =>
      cases e with
      | breach f => trivial
      | ended u => exact absurd hr (act_not_ended (by simpa using ha))
    | ok u =>
      have hu := h.2.trans (act_sessionUntouched hr)
      simp only [Ends]
      split
      · exact hu
      · exact ⟨(act_ok_bystander hr).weave ▸ h.1, hu⟩
  failed t h _ := h.2.trans (raiseFault_sessionUntouched _ _ (popSlot t))
  closed _ h _ := h.2.trans (raiseFault_sessionUntouched _ _ _)

variable {test : Act → Bool} {P : State → Prop} {Q : Stop → Prop}

/-- The property survives the register writes of the driver-level operations. -/
structure DriverKept (P : State → Prop) : Prop where
  addr : KeepsAddr P
  row  : KeepsRow P
  init : KeepsInit P
  dcd  : ∀ on, KeepsDc (·.dcD) on P
  dcc  : ∀ on, KeepsDc (·.dcC) on P
  dcb  : ∀ on, KeepsDc (·.dcB) on P
  ems  : ∀ on, KeepsEm (·.emS) on P
  emid : ∀ on, KeepsEm (·.emId) on P

/-- Every driver-level operation, under a property that survives its events and its register writes. -/
theorem driver_reached (w : Woven test P Q) (k : DriverKept P) {i : Instr} (hi : isSession i = false) {s t : State}
    (h : exec i s = .next t) (start : ∀ op, P { s with seq := .busy (agentOf s.issuer) op 0 }) : Reached P Q i s t := by
  cases i with
  | init => exact lcdOp_reached h fun _ _ => initBody_ends w k.init k.addr k.row (start _)
  | write text => exact lcdOp_reached h fun _ _ => writeBody_ends w k.addr k.row text (start _)
  | setcur col row => exact lcdOp_reached h fun _ _ => setcurBody_ends w k.addr k.row col row (start _)
  | clear => exact lcdOp_reached h fun _ _ => clearBody_ends w k.addr k.row (start _)
  | home => exact lcdOp_reached h fun _ _ => homeBody_ends w k.addr k.row (start _)
  | dispon => exact lcdOp_reached h fun _ _ => dcBody_ends w (k.dcd true _ (start _))
  | dispoff => exact lcdOp_reached h fun _ _ => dcBody_ends w (k.dcd false _ (start _))
  | curon => exact lcdOp_reached h fun _ _ => dcBody_ends w (k.dcc true _ (start _))
  | curoff => exact lcdOp_reached h fun _ _ => dcBody_ends w (k.dcc false _ (start _))
  | blinkon => exact lcdOp_reached h fun _ _ => dcBody_ends w (k.dcb true _ (start _))
  | blinkoff => exact lcdOp_reached h fun _ _ => dcBody_ends w (k.dcb false _ (start _))
  | blon => exact lcdOp_reached h fun _ _ => backlightBody_ends w true (start _)
  | bloff => exact lcdOp_reached h fun _ _ => backlightBody_ends w false (start _)
  | ascron => exact lcdOp_reached h fun _ _ => emBody_ends w (k.ems true _ (start _))
  | ascroff => exact lcdOp_reached h fun _ _ => emBody_ends w (k.ems false _ (start _))
  | ltr => exact lcdOp_reached h fun _ _ => emBody_ends w (k.emid true _ (start _))
  | rtl => exact lcdOp_reached h fun _ _ => emBody_ends w (k.emid false _ (start _))
  | storeg loc g => exact lcdOp_reached h fun _ _ => storegBody_ends w loc g (start _)
  | writeg loc => exact lcdOp_reached h fun _ _ => writegBody_ends w k.addr loc (start _)
  | regs index id => exact unlessHalted_reached h rfl
  | regc id indices => exact unlessHalted_reached h rfl
  | setint ms => exact unlessHalted_reached h rfl
  | pollstart => exact unlessHalted_reached h rfl
  | pollstop => exact unlessHalted_reached h rfl
  | swrite => cases hi
  | swritet => cases hi
  | sdisp => cases hi
  | sbl => cases hi

theorem sessionUntouched_driverKept (s : State) :
    DriverKept (fun t => noReset t.weave = true ∧ SessionUntouched s t) where
  addr _ _ _ h := h
  row _ _ _ h := h
  init _ h := ⟨h, h, h, h⟩
  dcd _ _ h := h
  dcc _ _ h := h
  dcb _ _ h := h
  ems _ _ h := h
  emid _ _ h := h

/-- Settles O55: the session's flags survive the events and the register writes of every driver-level operation. -/
theorem driverOperationsBypassSession : Obligations.DriverOperationsBypassSession := by
  intro i s t hi hw h
  rcases driver_reached (sessionUntouched_woven s) (sessionUntouched_driverKept s) hi h
      (fun _ => ⟨hw, .refl s⟩) with
    ⟨r, rfl⟩ | ⟨-, rfl⟩ | ⟨-, op, inFlight, a, n, -, rfl⟩ | ⟨-, -, hq⟩ | ⟨-, -, u, v, hu, rfl⟩
  · exact SessionUntouched.refl s
  · have hb := atomicOp_bystander s.issuer i s
    have hm := atomicOp_move (mayHold := fun _ => True) (c := s.issuer) trivial i s
    exact ⟨hb.displayOn, hb.backlightOn, hb.timeout, hm.timeoutActive⟩
  · exact raiseFault_sessionUntouched _ _ _
  · exact hq
  · exact hu.2

end Sys2Proof.Machine
end

section
/-!
Interleaving (R303): the run of an operation in its schedule is followed side by side with its quiet run, up to a fault
that is recorded. `Tracks` says it of one piece of an operation, and is closed under what the pieces are put together with.
-/

namespace Sys2Proof.Machine

open Sys2Proof.Claims

/-! ### What an operation reads and writes -/

/-- The state as an LCD-touching operation sees it: what the other agents own is at its reset value, and of the trace
only the operation's own events are left. -/
def lcdSide (s : State) : State :=
  { State.reset with
    cfg := s.cfg
    addr := s.addr
    row := s.row
    em := s.em
    fs := s.fs
    dc := s.dc
    displayOn := s.displayOn
    backlightOn := s.backlightOn
    timeoutActive := s.timeoutActive
    timeout := s.timeout
    seq := s.seq
    expBusy := s.expBusy
    fault := s.fault
    pb := s.pb
    initDone := s.initDone
    issuer := s.issuer
    trace := s.trace.filter isLcdEvent }

/-- An event that is not the operation's is not seen. -/
theorem lcdSide_emit {e : Event} (he : isLcdEvent e = false) (s : State) : lcdSide (emit e s) = lcdSide s := by
  simp [lcdSide, List.filter_append, he]

theorem lcdSide_respond (c : Ctx) (r : Response) (s : State) : lcdSide (respond c r s) = lcdSide s :=
  lcdSide_emit rfl s

/-- An event of the operation is seen alike in two states that look alike. -/
theorem lcdSide_emitOwn {u s : State} (h : lcdSide u = lcdSide s) (e : Event) :
    lcdSide (emitOwn e (popSlot u)) = lcdSide (emitOwn e (popSlot s)) := by
  have seen (t : State) : lcdSide (emitOwn e (popSlot t)) =
      { lcdSide t with seq := (lcdSide t).seq.advance, trace := (lcdSide t).trace ++ [e].filter isLcdEvent } := by
    simp [lcdSide, List.filter_append]
  rw [seen, seen, h]

/-! ### Other agents, as long as no fault is recorded -/

theorem TickMove.lcdSide_eq {s t : State} (m : TickMove s t) (ht : t.fault = none) :
    lcdSide t = lcdSide s ∧ t.halted = s.halted := by
  cases m with
  | sampled => exact ⟨(lcdSide_emit rfl _).trans rfl, rfl⟩
  | dispatched => exact ⟨(lcdSide_emit rfl _).trans rfl, rfl⟩
  | unread => exact absurd ht (raiseFault_ne_none _ _ _)
  | failed => exact absurd ht (raiseFault_ne_none _ _ _)
  | _ => exact ⟨rfl, rfl⟩

theorem OtherMove.lcdSide_eq {mayHold : Ctx → Prop} {s t : State} (m : OtherMove mayHold s t) (ht : t.fault = none) :
    lcdSide t = lcdSide s ∧ t.halted = s.halted := by
  refine ⟨?_, m.flight.1⟩
  cases m with
  | held c => cases c <;> rfl
  | resumedStop c => cases c <;> exact (lcdSide_respond _ _ _).trans rfl
  | resumedRestart c => cases c <;> exact (lcdSide_respond _ _ _).trans rfl
  | turnedAway => exact absurd ht (raiseFault_ne_none _ _ _)
  | collided => exact absurd ht (raiseFault_ne_none _ _ _)
  | returned => exact (lcdSide_emit rfl _).trans rfl
  | still => rfl
  | switched => rfl
  | device => rfl
  | _ => exact (lcdSide_respond _ _ _).trans rfl

theorem act_lcdSide {a : Act} {s t : State} (h : act a s = .ok t) (ht : t.fault = none) :
    lcdSide t = lcdSide s ∧ t.halted = s.halted :=
  (act_move h).elim (·.lcdSide_eq ht) (·.lcdSide_eq ht)

/-! ### The two runs -/

/-- A fault is recorded. -/
abbrev Faulty (t : State) : Prop := t.fault ≠ none

/-- A fault is recorded in an activity that is not reset. -/
abbrev Faulted (t : State) : Prop := weaveAll (remembered true) t.weave = true ∧ Faulty t

/-- `u`, in the quiet run, looks like `s`, in a run without a fault so far. Where `opened` is set, or the device of `s`
is open, that of `u` is open. -/
structure Mirror (opened : Bool) (u s : State) : Prop where
  lcd    : lcdSide u = lcdSide s
  quiet  : u.weave = []
  tested : weaveAll (remembered true) s.weave = true
  clean  : s.fault = none
  live   : s.halted = false
  device : opened = true ∨ s.devOpen = true → u.devOpen = true

theorem Mirror.weaken {opened : Bool} {u s : State} (h : Mirror true u s) : Mirror opened u s :=
  { h with device := fun _ => h.device (.inl rfl) }

/-- The run with the outcome `r'` has recorded a fault, or went like the quiet run with the outcome `r`. -/
def Follows (opened : Bool) (r r' : Except Stop State) : Prop :=
  Ends (fun t => Faulted t ∨ ∃ u, r = .ok u ∧ Mirror opened u t)
    (StopIn fun t => Faulty t ∨ ∃ u, r = .error (.ended u) ∧ lcdSide u = lcdSide t) r'

theorem Follows.of_faulted {opened : Bool} {r r' : Except Stop State} (h : Ends Faulted (StopIn Faulty) r') :
    Follows opened r r' := by
  rcases r' with (t | f) | t
  · exact .inl h
  · trivial
  · exact .inl h

/-- A piece of an operation keeps a recorded fault, and without one goes as it does undisturbed. -/
structure Tracks (before after : Bool) (f : State → Except Stop State) : Prop where
  faulted : ∀ s, Faulted s → Ends Faulted (StopIn Faulty) (f s)
  mirrors : ∀ u s, Mirror before u s → Follows after (f u) (f s)

section
variable {before between after : Bool} {f g : State → Except Stop State}

theorem Tracks.weaken (h : Tracks before true f) : Tracks before after f where
  faulted := h.faulted
  mirrors u s hm := by
    have k := h.mirrors u s hm
    rcases hs : f s with (t | e) | t
    all_goals rw [hs] at k
    · exact k
    · trivial
    · exact k.imp id fun ⟨v, hv, m⟩ => ⟨v, hv, m.weaken⟩

theorem Tracks.bind (hf : Tracks before between f) (hg : Tracks between after g) :
    Tracks before after (fun s => f s >>= g) where
  faulted s h := (hf.faulted s h).bind hg.faulted
  mirrors u s hm := by
    have k := hf.mirrors u s hm
    rcases hs : f s with (t | e) | t
    all_goals rw [hs] at k
    · exact k.imp id fun ⟨v, hv, m⟩ => ⟨v, by rw [hv]; rfl, m⟩
    · trivial
    · rcases k with k | ⟨v, hv, m⟩
      · exact .of_faulted (hg.faulted t k)
      · rw [hv]
        exact hg.mirrors v t m

/-- A piece with an operand that is read from the registers. -/
theorem Tracks.reads {α : Type} {f : α → State → Except Stop State} (p : State → α) (hp : ∀ s, p (lcdSide s) = p s)
    (h : ∀ a, Tracks before after (f a)) : Tracks before after (fun s => f (p s) s) where
  faulted s := (h (p s)).faulted s
  mirrors u s hm := by
    have hpu : p u = p s := by rw [← hp u, ← hp s, hm.lcd]
    rw [hpu]
    exact (h (p s)).mirrors u s hm

/-- A piece that depends on a test of the registers. -/
theorem Tracks.ite (p : State → Prop) [DecidablePred p] (hp : ∀ s, p (lcdSide s) ↔ p s) (hf : Tracks before after f)
    (hg : Tracks before after g) : Tracks before after (fun s => if p s then f s else g s) where
  faulted s h := by
    split
    · exact hf.faulted s h
    · exact hg.faulted s h
  mirrors u s hm := by
    have hpu : p u ↔ p s := by rw [← hp u, ← hp s, hm.lcd]
    simp only [hpu]
    split
    · exact hf.mirrors u s hm
    · exact hg.mirrors u s hm

/-- A write that states which look alike survive: of the operation's own registers, or of the trace by a response. -/
structure LcdWrite (w : State → State) : Prop where
  lcd     : ∀ u s, lcdSide u = lcdSide s → lcdSide (w u) = lcdSide (w s)
  weave   : ∀ s, (w s).weave = s.weave
  fault   : ∀ s, (w s).fault = s.fault
  halted  : ∀ s, (w s).halted = s.halted
  devOpen : ∀ s, (w s).devOpen = s.devOpen

variable {w : State → State}

/-- A write of registers the operation sees. -/
theorem LcdWrite.seen (lcd : ∀ s, lcdSide (w s) = w (lcdSide s) := by intro s; rfl)
    (weave : ∀ s, (w s).weave = s.weave := by intro s; rfl) (fault : ∀ s, (w s).fault = s.fault := by intro s; rfl)
    (halted : ∀ s, (w s).halted = s.halted := by intro s; rfl)
    (devOpen : ∀ s, (w s).devOpen = s.devOpen := by intro s; rfl) : LcdWrite w :=
  ⟨fun u s h => by rw [lcd, lcd, h], weave, fault, halted, devOpen⟩

theorem LcdWrite.faulted (hw : LcdWrite w) {s : State} (h : Faulted s) : Faulted (w s) :=
  ⟨(hw.weave s).symm ▸ h.1, by rw [Faulty, hw.fault]; exact h.2⟩

theorem LcdWrite.mirror (hw : LcdWrite w) {u s : State} (h : Mirror before u s) : Mirror before (w u) (w s) where
  lcd := hw.lcd u s h.lcd
  quiet := (hw.weave u).trans h.quiet
  tested := (hw.weave s).symm ▸ h.tested
  clean := (hw.fault s).trans h.clean
  live := (hw.halted s).trans h.live
  device := by rw [hw.devOpen, hw.devOpen]; exact h.device

theorem Tracks.after_write (hw : LcdWrite w) (hf : Tracks before after f) :
    Tracks before after (fun s => f (w s)) where
  faulted s h := hf.faulted (w s) (hw.faulted h)
  mirrors u s hm := hf.mirrors (w u) (w s) (hw.mirror hm)

theorem Tracks.write (hw : LcdWrite w) : Tracks before before (fun s => .ok (w s)) where
  faulted _ h := hw.faulted h
  mirrors u _ hm := .inr ⟨w u, rfl, hw.mirror hm⟩

theorem Tracks.skip : Tracks before before (fun s => .ok s) := .write (w := fun s => s) .seen

end

/-! ### Events -/

theorem faulty_of_remembers {s t : State} (h : Faulty s) (k : Remembers true s t) : Faulty t := by
  obtain ⟨f, hf⟩ := Option.ne_none_iff_exists'.mp h
  simp [Faulty, k.1 f hf]

theorem faulted_ends {r : Except Stop State} {s : State} (h : Faulty s)
    (k : Ends (RemembersUnder true s) (StopIn (Remembers true s)) r) : Ends Faulted (StopIn Faulty) r := by
  rcases r with (t | f) | t
  · exact faulty_of_remembers h k
  · trivial
  · exact ⟨k.1, faulty_of_remembers h k.2⟩

theorem remembersUnder_refl {s : State} (h : weaveAll (remembered true) s.weave = true) : RemembersUnder true s s :=
  ⟨h, .same rfl rfl rfl rfl⟩

/-- A step of another agent records a fault, or the operation does not see it. -/
theorem act_follows {a : Act} {u s t : State} (ha : remembered true a = true) (h : Faulted s ∨ Mirror true u s)
    (hr : act a s = .ok t) : Faulted t ∨ Mirror true u t := by
  have hweave := (act_ok_bystander hr).weave
  rcases h with ⟨hw, hs⟩ | hm
  · exact .inl ⟨hweave ▸ hw, faulty_of_remembers hs (act_remembers ha hr)⟩
  · by_cases ht : t.fault = none
    · obtain ⟨hlcd, hhalted⟩ := act_lcdSide hr ht
      exact .inr ⟨hm.lcd.trans hlcd.symm, hm.quiet, hweave ▸ hm.tested, ht, hhalted.trans hm.live,
        fun _ => hm.device (.inl rfl)⟩
    · exact .inl ⟨hweave ▸ hm.tested, ht⟩

theorem weaveActs_follows {acts : List Act} (ha : acts.all (remembered true) = true) {u s : State}
    (h : Faulted s ∨ Mirror true u s) :
    Ends (fun t => Faulted t ∨ Mirror true u t) (StopIn Faulty) (weaveActs acts s) := by
  induction acts generalizing s with
  | nil => exact h
  | cons a rest ih =>
    rw [List.all_cons, Bool.and_eq_true] at ha
    rw [weaveActs]
    rcases hr : act a s with (t | f) | t
    · rw [remembered, Bool.and_eq_true, Bool.not_eq_true'] at ha
      exact absurd hr (act_not_ended ha.1.1)
    · trivial
    · have ht := act_follows ha.1 h hr
      rw [bind_ok]
      split
      · next halted => exact ht.elim (·.2) fun m => absurd (m.live.symm.trans halted) Bool.false_ne_true
      · exact ih ha.2 ht

/-- An event of the operation, and what is woven in after it. -/
theorem ownEvent_follows {u s : State} (h : Mirror true u s) (e : Event) (after : Bool) :
    Follows after (ownEvent e u) (ownEvent e s) := by
  have hu : ownEvent e u = .ok (emitOwn e (popSlot u)) := by rw [ownEvent, nextSlot_quiet h.quiet, weaveActs]
  have hm : Mirror true (emitOwn e (popSlot u)) (emitOwn e (popSlot s)) :=
    ⟨lcdSide_emitOwn h.lcd e, by simp [h.quiet], weaveAll_tail h.tested, h.clean, h.live, h.device⟩
  have k := weaveActs_follows (nextSlot_all h.tested) (.inr hm)
  rw [hu]
  unfold ownEvent
  rcases hs : weaveActs (nextSlot s).after (emitOwn e (popSlot s)) with (t | f) | t
  all_goals rw [hs] at k
  · exact .inl k
  · trivial
  · exact k.imp id fun m => ⟨_, rfl, m.weaken⟩

theorem delay_tracks (t : Wait) : Tracks true true (delay t) where
  faulted _ h := faulted_ends h.2 (delay_ends (remembers_woven true _) (remembersUnder_refl h.1) t)
  mirrors _ _ hm := ownEvent_follows hm _ _

/-- A register access finds the device of the quiet run open, if it does not fault. -/
theorem access_tracks (before : Bool) (e : Event) (v : Byte) : Tracks before true (access e v) where
  faulted _ h := faulted_ends h.2 (access_ends (remembers_woven true _) (remembersUnder_refl h.1) e v)
  mirrors u s hm := by
    unfold access
    by_cases hs : s.devOpen = true
    · have hu := hm.device (.inr hs)
      rw [if_pos hs, if_pos hu, nextSlot_quiet hm.quiet, if_neg Bool.false_ne_true]
      split
      · exact .inl (raiseFault_ne_none _ _ _)
      · have hw : LcdWrite fun s => { s with pb := v } := .seen
        exact ownEvent_follows (hw.mirror (before := true) { hm with device := fun _ => hu }) e true
    · rw [if_neg hs]
      exact .inl (raiseFault_ne_none _ _ _)

/-! ### The primitives (R130 to R137) -/

section
variable {before : Bool}

theorem bitWrite_tracks (i : Nat) (b : Bool) : Tracks before true (bitWrite i b) :=
  .reads (f := fun p => access (.bw .pb i b) (setBit p i b)) (·.pb) (fun _ => rfl) fun _ => access_tracks _ _ _

theorem readPb_tracks : Tracks before true readPb :=
  .reads (f := fun p => access (.rd .pb p) p) (·.pb) (fun _ => rfl) fun _ => access_tracks _ _ _

theorem writePb_tracks (v : Byte) : Tracks before true (writePb v) := access_tracks _ _ _

/-- A write of a line whose index is a parameter. -/
theorem pinWrite_tracks (pin : Config → Nat) (b : Bool) : Tracks before true (fun s => bitWrite (pin s.cfg) b s) :=
  .reads (f := fun i => bitWrite i b) (fun s => pin s.cfg) (fun _ => rfl) fun _ => bitWrite_tracks _ _

theorem pulseEnable_tracks : Tracks before true pulseEnable :=
  (pinWrite_tracks (·.pinEn) true).bind <| (delay_tracks .pulse).bind <| (pinWrite_tracks (·.pinEn) false).bind <|
    delay_tracks .pulse

theorem sendNibble_tracks (n : Nibble) : Tracks before true (sendNibble n) :=
  .reads (f := fun p s => readPb s >>= fun s => writePb (putNibble p n) s >>= pulseEnable) (·.pb) (fun _ => rfl)
    fun _ => readPb_tracks.bind <| (writePb_tracks _).bind pulseEnable_tracks

theorem sendByte_tracks (v : Byte) : Tracks before true (sendByte v) :=
  (sendNibble_tracks _).bind (sendNibble_tracks _)

theorem sendBus_tracks (rs : Bool) (v : Byte) : Tracks before true (sendBus rs v) :=
  (pinWrite_tracks (·.pinRs) rs).bind <| (sendByte_tracks v).bind <| delay_tracks .settle

/-- A command byte that is read from the registers. -/
theorem sendCommand_tracks (byte : State → Byte) (hb : ∀ s, byte (lcdSide s) = byte s) :
    Tracks before true (fun s => sendCommand (byte s) s) :=
  .reads (f := sendCommand) byte hb fun v => sendBus_tracks false v

theorem sendSlowCommand_tracks (v : Byte) : Tracks before true (sendSlowCommand v) :=
  (sendBus_tracks false v).bind <| delay_tracks .clear

theorem rawNibble_tracks (n : Nibble) : Tracks before true (rawNibble n) :=
  (sendNibble_tracks n).bind <| delay_tracks .settle

theorem legacyReset_tracks (t : Wait) : Tracks true true (legacyReset t) :=
  (delay_tracks t).bind <| .reads (f := rawNibble) (·.cfg.nibReset8) (fun _ => rfl) rawNibble_tracks

theorem initRaw_tracks : Tracks before true initRaw :=
  (pinWrite_tracks (·.pinRs) false).bind <| (legacyReset_tracks _).bind <| (legacyReset_tracks _).bind <|
    (legacyReset_tracks _).bind <| .reads (f := rawNibble) (·.cfg.nibTo4bit) (fun _ => rfl) rawNibble_tracks

/-- A register write, then a command byte that is read from the registers. -/
theorem loadAndSend_tracks {w : State → State} (hw : LcdWrite w) (byte : State → Byte)
    (hb : ∀ s, byte (lcdSide s) = byte s) : Tracks before true (fun s => sendCommand (byte (w s)) (w s)) :=
  .after_write hw (sendCommand_tracks byte hb)

theorem initFlags_tracks : Tracks before true initFlags :=
  (loadAndSend_tracks (w := fun s => { s with fs := s.cfg.initFs }) .seen funcSetByte fun _ => rfl).bind <|
    (loadAndSend_tracks (w := fun s => { s with dc := s.cfg.initDc }) .seen dispCtrlByte fun _ => rfl).bind <|
    (loadAndSend_tracks (w := fun s => { s with em := s.cfg.initEm }) .seen entryModeByte fun _ => rfl).bind <|
    (Tracks.reads (f := sendSlowCommand) (·.cfg.cmdClear) (fun _ => rfl) sendSlowCommand_tracks).bind <|
    .write (w := fun s => markInit (cursorHome s)) .seen

/-! ### The bodies -/

theorem initBody_tracks : Tracks before true initBody := initRaw_tracks.bind initFlags_tracks

theorem clearBody_tracks : Tracks before true clearBody :=
  (Tracks.reads (f := sendSlowCommand) (·.cfg.cmdClear) (fun _ => rfl) sendSlowCommand_tracks).bind <|
    .write (w := cursorHome) .seen

theorem homeBody_tracks : Tracks before true homeBody :=
  (Tracks.reads (f := sendSlowCommand) (·.cfg.cmdHome) (fun _ => rfl) sendSlowCommand_tracks).bind <|
    .write (w := cursorHome) .seen

theorem setDdram_tracks (v : Nat) : Tracks before true (setDdram v) :=
  (sendCommand_tracks (fun s => setDdramByte s.cfg (reduceDdram v)) fun _ => rfl).bind <|
    .write (w := fun s => { s with addr := reduceDdram v }) .seen

theorem newline_tracks : Tracks before true newline :=
  .after_write (w := fun s => { s with row := nextRow s.row }) (f := fun s => setDdram (rowOffset s.row.toNat) s)
    .seen <| .reads (f := setDdram) (fun s => rowOffset s.row.toNat) (fun _ => rfl) setDdram_tracks

theorem sendChar_tracks (d : Byte) : Tracks before true (sendChar d) :=
  (sendBus_tracks true d).bind <| .write (w := fun s => { s with addr := nextAddr s.addr }) .seen

theorem writeText_tracks (text : List Byte) : Tracks true true (writeText text) := by
  induction text with
  | nil => exact .skip
  | cons b rest ih =>
    exact .ite (fun s => b = s.cfg.newline) (fun _ => .rfl) (newline_tracks.bind ih) ((sendChar_tracks b).bind ih)

theorem sendCursor_tracks : Tracks before true sendCursor :=
  sendCommand_tracks (fun s => setDdramByte s.cfg s.addr) fun _ => rfl

theorem writeBody_tracks (text : List Byte) : Tracks before true (writeBody text) :=
  sendCursor_tracks.bind (writeText_tracks text)

theorem setcurBody_tracks (col row : Int) : Tracks before true (setcurBody col row) :=
  (setDdram_tracks _).bind <| .write (w := fun s => { s with row := BitVec.ofNat 8 (clampedRow row) }) .seen

theorem sendRows_tracks (rows : List Byte) : Tracks true true (sendRows rows) := by
  induction rows with
  | nil => exact .skip
  | cons d rest ih => exact (sendBus_tracks true d).bind ih

theorem storegBody_tracks (loc : Byte) (g : Glyph) : Tracks before true (storegBody loc g) :=
  (sendCommand_tracks (fun s => setCgramByte s.cfg loc) fun _ => rfl).bind (sendRows_tracks _)

theorem writegBody_tracks (loc : Byte) : Tracks before true (writegBody loc) :=
  sendCursor_tracks.bind (sendChar_tracks loc)

theorem dcBody_tracks (mask : Byte) (on : Bool) : Tracks before true (dcBody mask on) :=
  loadAndSend_tracks (w := flagDc mask on) .seen dispCtrlByte fun _ => rfl

theorem emBody_tracks (mask : Byte) (on : Bool) : Tracks before true (emBody mask on) :=
  loadAndSend_tracks (w := flagEm mask on) .seen entryModeByte fun _ => rfl

theorem backlightBody_tracks (on : Bool) : Tracks before true (backlightBody on) := pinWrite_tracks (·.pinBl) on

theorem displayBody_tracks (on : Bool) : Tracks before true (fun s => dcBody s.cfg.dcD on s) :=
  .reads (f := fun mask => dcBody mask on) (·.cfg.dcD) (fun _ => rfl) fun _ => dcBody_tracks _ _

theorem displayOnBody_tracks : Tracks before before displayOnBody :=
  .ite (·.displayOn = true) (fun _ => .rfl) .skip <|
    ((displayBody_tracks true).bind <| .write (w := fun s => { s with displayOn := true }) .seen).weaken

theorem backlightOnBody_tracks : Tracks before before backlightOnBody :=
  .ite (·.backlightOn = true) (fun _ => .rfl) .skip <|
    ((backlightBody_tracks true).bind <| .write (w := fun s => { s with backlightOn := true }) .seen).weaken

theorem backlightOffBody_tracks : Tracks before before backlightOffBody :=
  .ite (·.backlightOn = true) (fun _ => .rfl)
    ((backlightBody_tracks false).bind <| .write (w := fun s => { s with backlightOn := false }) .seen).weaken .skip

theorem displayOffBody_tracks : Tracks before before displayOffBody :=
  .ite (·.displayOn = true) (fun _ => .rfl)
    ((displayBody_tracks false).bind <| .after_write (w := fun s => { s with displayOn := false }) .seen
      backlightOffBody_tracks).weaken .skip

theorem sdispBody_tracks (st : Byte) : Tracks before before (sdispBody st) :=
  .ite (fun _ => st = 1) (fun _ => .rfl) displayOnBody_tracks displayOffBody_tracks

theorem sblBody_tracks (st : Byte) : Tracks before before (sblBody st) :=
  .ite (fun _ => st = 1) (fun _ => .rfl) backlightOnBody_tracks backlightOffBody_tracks

theorem powerUp_tracks : Tracks before before powerUp :=
  .ite (fun s => (s.displayOn && s.backlightOn) = true) (fun _ => .rfl) .skip <|
    displayOnBody_tracks.bind backlightOnBody_tracks

/-- R245: a wait that never ends stops both runs. -/
theorem hang_tracks : Tracks before before (fun s => .error (.ended s)) where
  faulted _ h := h.2
  mirrors u _ hm := .inr ⟨u, rfl, hm.lcd⟩

theorem cancelTimer_tracks : Tracks before before cancelTimer :=
  .ite (·.expBusy = true) (fun _ => .rfl) hang_tracks (.write (w := fun s => { s with timeoutActive := false }) .seen)

theorem cancelPending_tracks : Tracks before before cancelPending :=
  .ite (·.timeoutActive = true) (fun _ => .rfl) cancelTimer_tracks .skip

theorem swriteBody_tracks (text : List Byte) : Tracks before true (swriteBody text) :=
  powerUp_tracks.bind <| cancelPending_tracks.bind (writeBody_tracks text)

theorem swritetBody_tracks (text : List Byte) (ms : Word32) : Tracks before true (swritetBody text ms) :=
  (swriteBody_tracks text).bind <| .write (w := armTimer ms) .seen

end

/-! ### Whole operations -/

/-- A response is not seen, whoever gets it. -/
theorem LcdWrite.respond {w : State → State} (hw : LcdWrite w) (c : State → Ctx) (r : State → Response) :
    LcdWrite (fun s => respond (c s) (r s) (w s)) where
  lcd u s h := by rw [lcdSide_respond, lcdSide_respond, hw.lcd u s h]
  weave := hw.weave
  fault := hw.fault
  halted := hw.halted
  devOpen := hw.devOpen

section
variable {before after : Bool} {body : State → Except Stop State}

theorem startLcd_tracks (who : Raiser) (a : Agent) (op : OpName) : Tracks before before (startLcd who a op) where
  faulted s h := by
    unfold startLcd
    split
    · exact h
    · exact raiseFault_ne_none _ _ _
  mirrors u s hm := by
    have hseq := congrArg State.seq hm.lcd
    change u.seq = s.seq at hseq
    have hw : LcdWrite fun t => { t with seq := .busy a op 0 } := .seen
    unfold startLcd
    rw [hseq]
    split
    · exact .inr ⟨_, rfl, hw.mirror hm⟩
    · exact .inl (raiseFault_ne_none _ _ _)

theorem startOp_tracks (op : OpName) : Tracks before before (startOp op) :=
  .reads (f := fun c => startLcd (.host c) (agentOf c) op) (·.issuer) (fun _ => rfl) fun _ => startLcd_tracks _ _ _

/-- An operation from its start to its response. -/
theorem started_tracks (hb : Tracks before after body) (op : OpName) (result : State → Byte) :
    Tracks before after (fun s => startOp op s >>= fun s => body s >>= fun s => .ok (finishOp (result s) s)) :=
  (startOp_tracks op).bind <| hb.bind <| .write <|
    LcdWrite.respond (w := fun s => { s with seq := .idle }) .seen (·.issuer) fun s => .ok (result s)

theorem refused_tracks (r : Reason) : Tracks before after (fun s => .error (.ended (refuse s.issuer r s))) where
  faulted _ h := h.2
  mirrors u s hm := .inr ⟨_, rfl, (lcdSide_respond _ _ u).trans (hm.lcd.trans (lcdSide_respond _ _ s).symm)⟩

/-- SDISP or SBL past its acceptance. -/
theorem switch_tracks (hb : Tracks before before body) (op : OpName) (good touching : Bool) :
    Tracks before before (fun s => demand good s >>= fun s =>
      if touching then startOp op s >>= fun s => body s >>= fun s => .ok (finishOp 0 s)
      else .ok (respond s.issuer (.ok 0) s)) :=
  Tracks.bind (.ite (fun _ => good = true) (fun _ => .rfl) .skip (refused_tracks .badOperand)) <|
    .ite (fun _ => touching = true) (fun _ => .rfl) (started_tracks hb op fun _ => 0) <| .write <|
      LcdWrite.respond (w := fun s => s) .seen (·.issuer) fun _ => .ok 0

end

/-- The state in which an operation is issued, with nothing woven into it. -/
def quieted (s : State) : State := { s with weave := [] }

/-- The outcome of the quiet run is a next state that looks like `t`. -/
def EndsAlike (r : Host.Outcome State Fault Refusal) (t : State) : Prop := ∃ u, r = .next u ∧ lcdSide u = lcdSide t

section
variable {s t : State} {f : State → Except Stop State}

/-- The outcomes of two runs of which one followed the other. -/
theorem Follows.conclude {after : Bool} {r r' : Except Stop State} (h : Follows after r r')
    (hr : conclude r' = .next t) (ht : t.fault = none) : EndsAlike (Machine.conclude r) t := by
  rcases conclude_next.mp hr with rfl | rfl
  · obtain ⟨u, rfl, hm⟩ := h.resolve_left fun k => k.2 ht
    exact ⟨u, rfl, hm.lcd⟩
  · obtain ⟨u, rfl, hlcd⟩ := h.resolve_left fun k => k ht
    exact ⟨u, rfl, hlcd⟩

/-- An operation whose pieces track the quiet run past its acceptance ends like its quiet run. -/
theorem accepted_endsAlike {after : Bool} (hf : Tracks false after f) (clean : s.fault = none)
    (hw : weaveAll (remembered true) s.weave = true) (h : conclude (accept s >>= f) = .next t) (ht : t.fault = none) :
    EndsAlike (conclude (accept (quieted s) >>= f)) t := by
  by_cases live : s.halted = true
  · rw [accept_halted live] at h
    rw [accept_halted (s := quieted s) live]
    cases h
    exact ⟨_, rfl, (lcdSide_respond _ _ _).trans (lcdSide_respond _ _ s).symm⟩
  · rw [Bool.not_eq_true] at live
    rw [accept_live live, bind_ok] at h
    rw [accept_live (s := quieted s) live, bind_ok]
    have hm : Mirror false (quieted s) s := ⟨rfl, rfl, hw, clean, live, fun k => k.resolve_left Bool.false_ne_true⟩
    exact (hf.mirrors _ _ hm).conclude h ht

theorem lcdOp_endsAlike {op : OpName} {body : State → Except Stop State} {result : State → Byte} {after : Bool}
    (hb : Tracks false after body) (clean : s.fault = none) (hw : weaveAll (remembered true) s.weave = true)
    (h : lcdOp op body result s = .next t) (ht : t.fault = none) : EndsAlike (lcdOp op body result (quieted s)) t :=
  accepted_endsAlike (started_tracks hb op result) clean hw h ht

theorem switchOp_endsAlike {op : OpName} {good touching : Bool} {body : State → Except Stop State}
    (hb : Tracks false false body) (clean : s.fault = none) (hw : weaveAll (remembered true) s.weave = true)
    (h : switchOp op good touching body s = .next t) (ht : t.fault = none) :
    EndsAlike (switchOp op good touching body (quieted s)) t :=
  accepted_endsAlike (switch_tracks hb op good touching) clean hw h ht

theorem setWait_lcdSide (c : Ctx) (w : Option Held) (s : State) : lcdSide (setWait c w s) = lcdSide s := by
  cases c <;> rfl

theorem registerOp_lcdSide (c : Ctx) (key : Option Nat) (h : Byte) (s : State) :
    lcdSide (registerOp c key h s) = lcdSide s := by
  cases key with
  | none => exact lcdSide_respond _ _ _
  | some a => exact lcdSide_respond _ _ { s with map := Memory.register s.map a h }

theorem setintOp_lcdSide (c : Ctx) (ms : Word32) (s : State) : lcdSide (setintOp c ms s) = lcdSide s := by
  unfold setintOp
  split_ifs
  · exact lcdSide_respond _ _ _
  · exact setWait_lcdSide _ _ _
  · exact lcdSide_respond _ _ { s with interval := ms, running := true }
  · exact lcdSide_respond _ _ { s with interval := ms }

theorem pollstartOp_lcdSide (c : Ctx) (s : State) : lcdSide (pollstartOp c s) = lcdSide s := by
  unfold pollstartOp
  split_ifs
  · exact lcdSide_respond _ _ _
  · exact lcdSide_respond _ _ { s with running := true }

theorem pollstopOp_lcdSide (c : Ctx) (s : State) : lcdSide (pollstopOp c s) = lcdSide s := by
  unfold pollstopOp
  split_ifs
  · exact setWait_lcdSide _ _ _
  · exact lcdSide_respond _ _ { s with running := false }
  · exact lcdSide_respond _ _ _

/-- The poller's operations are not seen on the LCD side, in any schedule. -/
theorem pollerOp_endsAlike {f : State → State} (hf : ∀ s, lcdSide (f s) = lcdSide s) (c : Ctx)
    (h : Host.Outcome.next (unlessHalted c f s) = (.next t : Host.Outcome State Fault Refusal)) :
    EndsAlike (.next (unlessHalted c f (quieted s))) t := by
  cases h
  have seen (s : State) : lcdSide (unlessHalted c f s) = lcdSide s := by
    unfold unlessHalted
    split
    · exact lcdSide_respond _ _ _
    · exact hf s
  exact ⟨_, rfl, (seen _).trans (seen s).symm⟩

/-- Every operation that records no fault ends like its quiet run. -/
theorem exec_endsAlike {i : Instr} (clean : s.fault = none) (hw : weaveAll (remembered true) s.weave = true)
    (h : exec i s = .next t) (ht : t.fault = none) : EndsAlike (exec i (quieted s)) t := by
  cases i with
  | init => exact lcdOp_endsAlike initBody_tracks clean hw h ht
  | write text => exact lcdOp_endsAlike (writeBody_tracks text) clean hw h ht
  | setcur col row => exact lcdOp_endsAlike (setcurBody_tracks col row) clean hw h ht
  | clear => exact lcdOp_endsAlike clearBody_tracks clean hw h ht
  | home => exact lcdOp_endsAlike homeBody_tracks clean hw h ht
  | dispon => exact lcdOp_endsAlike (displayBody_tracks true) clean hw h ht
  | dispoff => exact lcdOp_endsAlike (displayBody_tracks false) clean hw h ht
  | curon => exact lcdOp_endsAlike (dcBody_tracks s.cfg.dcC true) clean hw h ht
  | curoff => exact lcdOp_endsAlike (dcBody_tracks s.cfg.dcC false) clean hw h ht
  | blinkon => exact lcdOp_endsAlike (dcBody_tracks s.cfg.dcB true) clean hw h ht
  | blinkoff => exact lcdOp_endsAlike (dcBody_tracks s.cfg.dcB false) clean hw h ht
  | blon => exact lcdOp_endsAlike (backlightBody_tracks true) clean hw h ht
  | bloff => exact lcdOp_endsAlike (backlightBody_tracks false) clean hw h ht
  | ascron => exact lcdOp_endsAlike (emBody_tracks s.cfg.emS true) clean hw h ht
  | ascroff => exact lcdOp_endsAlike (emBody_tracks s.cfg.emS false) clean hw h ht
  | ltr => exact lcdOp_endsAlike (emBody_tracks s.cfg.emId true) clean hw h ht
  | rtl => exact lcdOp_endsAlike (emBody_tracks s.cfg.emId false) clean hw h ht
  | storeg loc g => exact lcdOp_endsAlike (storegBody_tracks loc g) clean hw h ht
  | writeg loc => exact lcdOp_endsAlike (writegBody_tracks loc) clean hw h ht
  | regs index id => exact pollerOp_endsAlike (registerOp_lcdSide s.issuer (singleKey index) id) s.issuer h
  | regc id indices => exact pollerOp_endsAlike (registerOp_lcdSide s.issuer (comboKey indices) id) s.issuer h
  | setint ms => exact pollerOp_endsAlike (setintOp_lcdSide s.issuer ms) s.issuer h
  | pollstart => exact pollerOp_endsAlike (pollstartOp_lcdSide s.issuer) s.issuer h
  | pollstop => exact pollerOp_endsAlike (pollstopOp_lcdSide s.issuer) s.issuer h
  | swrite text => exact lcdOp_endsAlike (swriteBody_tracks text) clean hw h ht
  | swritet text ms => exact lcdOp_endsAlike (swritetBody_tracks text ms) clean hw h ht
  | sdisp st => exact switchOp_endsAlike (sdispBody_tracks st) clean hw h ht
  | sbl st => exact switchOp_endsAlike (sblBody_tracks st) clean hw h ht

end

/-- Settles O46: the operation ends like its quiet run, and what looks alike agrees on everything the LCD side has. -/
theorem interleavingLeavesOperationAlone : Obligations.InterleavingLeavesOperationAlone := by
  intro i s t hw h ht
  rw [noReset_eq_remembered] at hw
  have clean : s.fault = none := by
    by_contra hs
    exact faulty_of_remembers hs (exec_remembers hw h) ht
  obtain ⟨u, hu, hlcd⟩ := exec_endsAlike clean hw h ht
  have field {α : Type} (p : State → α) : p (lcdSide t) = p (lcdSide u) := by rw [hlcd]
  exact ⟨u, hu, (field (·.fault)).symm.trans ht, field (·.trace), field (·.pb), field (·.addr), field (·.row),
    field (·.em), field (·.fs), field (·.dc), field (·.displayOn), field (·.backlightOn), field (·.timeoutActive),
    field (·.timeout), field (·.seq)⟩

end Sys2Proof.Machine
end

section
/-!
The latch of port B (R64) and its observer (R77): every access that succeeds does to the latch what R64 says; at a
strobed nibble the observer latches RS and that nibble, whatever framing it is in, so two nibbles after a write of RS
are one bus byte.
-/

namespace Sys2Proof.Machine

/-! ### The latch -/

/-- Settles O11: each access plays its one event; the bits of a single-bit write are `bitOf_setBit`. -/
theorem portLatchReadBack : Obligations.PortLatchReadBack := by
  refine ⟨fun s v hs => ?_, fun s i b hs => ?_, fun s hs => ?_⟩
  · exact ⟨_, writePb_quiet hs v, rfl, rfl⟩
  · exact ⟨_, bitWrite_quiet hs i b, rfl, rfl, fun _ hk => bitOf_setBit s.pb i b hk⟩
  · exact ⟨_, readPb_quiet hs, rfl, rfl⟩

/-! ### What the observer sees of one nibble -/

/-- A read is not seen. -/
@[simp] theorem watchEvent_rd (c : Config) (w : Watch) (r : Reg) (v : Byte) : watchEvent c w (.rd r v) = (w, []) := rfl

/-- A write of the port is a new latch. -/
@[simp] theorem watchEvent_wr_pb (c : Config) (w : Watch) (v : Byte) :
    watchEvent c w (.wr .pb v) = (⟨w.framing, v⟩, []) := rfl

@[simp] theorem watchEvent_dly (c : Config) (w : Watch) (t : Wait) :
    watchEvent c w (.dly t) = (⟨waited t w.framing, w.pb⟩, []) := rfl

section
variable {c : Config} (hc : c.PinsOk)
include hc

/-- A strobed nibble stands on the data lines. -/
theorem lowNibble_nibblePb (n : Nibble) (pb : Byte) : lowNibble (nibblePb c n pb) = n := by
  have ⟨hen, _⟩ := hc
  refine lowNibble_eq fun k hk => ?_
  rw [bitOf_nibblePb hc n pb (by omega), if_neg (by omega), if_pos hk]

/-- A strobed nibble leaves RS alone. -/
theorem bitOf_nibblePb_pinRs (n : Nibble) (pb : Byte) : bitOf (nibblePb c n pb) c.pinRs = bitOf pb c.pinRs := by
  have ⟨_, _, hrs, hrs8, _, _, hne, _⟩ := hc
  rw [bitOf_nibblePb hc n pb hrs8, if_neg hne.symm, if_neg (by omega)]

/-- The falling edge that ends a strobe: the observer takes RS and the nibble. -/
theorem watchEvent_strobe (f : Framing) (n : Nibble) (pb : Byte) :
    watchEvent c ⟨f, setBit (putNibble pb n) c.pinEn true⟩ (.bw .pb c.pinEn false) =
      (⟨(strobe f (bitOf pb c.pinRs, n)).1, nibblePb c n pb⟩, (strobe f (bitOf pb c.pinRs, n)).2) := by
  have ⟨_, hen8, _⟩ := hc
  have high : bitOf (setBit (putNibble pb n) c.pinEn true) c.pinEn = true := by rw [bitOf_setBit _ _ _ hen8, if_pos rfl]
  have latch : setBit (setBit (putNibble pb n) c.pinEn true) c.pinEn false = nibblePb c n pb := rfl
  simp only [watchEvent, high, latch, bitOf_nibblePb_pinRs hc, lowNibble_nibblePb hc, and_self, if_true]

/-- The rising edge of enable latches nothing. -/
theorem watchEvent_rise (w : Watch) :
    watchEvent c w (.bw .pb c.pinEn true) = (⟨w.framing, setBit w.pb c.pinEn true⟩, []) := by
  have ⟨_, _, _, _, _, _, hne, _⟩ := hc
  simp [watchEvent, hne]

/-- A write of RS latches nothing. -/
theorem watchEvent_pinRs (w : Watch) (rs : Bool) :
    watchEvent c w (.bw .pb c.pinRs rs) = (⟨selected w.framing, setBit w.pb c.pinRs rs⟩, []) := by
  have ⟨_, _, _, _, _, _, hne, _⟩ := hc
  simp [watchEvent, hne.symm]

theorem watchAfter_nibbleEvents (f : Framing) (n : Nibble) (pb : Byte) :
    watchAfter c ⟨f, pb⟩ (nibbleEvents c n pb) = ⟨(strobe f (bitOf pb c.pinRs, n)).1, nibblePb c n pb⟩ := by
  simp only [nibbleEvents, pulseEvents, watchAfter, watchEvent_rise hc, watchEvent_strobe hc, watchEvent_rd,
    watchEvent_wr_pb, watchEvent_dly, waited]

theorem watchBytes_nibbleEvents (f : Framing) (n : Nibble) (pb : Byte) :
    watchBytes c ⟨f, pb⟩ (nibbleEvents c n pb) = (strobe f (bitOf pb c.pinRs, n)).2 := by
  simp only [nibbleEvents, pulseEvents, watchBytes, watchEvent_rise hc, watchEvent_strobe hc, watchEvent_rd,
    watchEvent_wr_pb, watchEvent_dly, waited, List.nil_append, List.append_nil]

/-! ### What it sees of bus bytes -/

/-- Between two bytes, the high nibble waits for the low one, and the observer stands between two bytes again. -/
theorem watchAfter_byteEvents (v pb : Byte) :
    watchAfter c ⟨.paired none, pb⟩ (byteEvents c v pb) = ⟨.paired none, bytePb c v pb⟩ := by
  simp only [byteEvents, bytePb, watchAfter_append, watchAfter_nibbleEvents hc, strobe]

/-- R66: between two bytes, the two nibbles of a byte are that byte. -/
theorem watchBytes_byteEvents (v pb : Byte) :
    watchBytes c ⟨.paired none, pb⟩ (byteEvents c v pb) = [(bitOf pb c.pinRs, v)] := by
  simp only [byteEvents, watchBytes_append, watchBytes_nibbleEvents hc, watchAfter_nibbleEvents hc, strobe,
    List.nil_append, highNibble_append_lowNibble]

theorem watchAfter_busEvents (rs : Bool) (v pb : Byte) :
    watchAfter c ⟨.paired none, pb⟩ (busEvents c rs v pb) = ⟨.paired none, busPb c rs v pb⟩ := by
  simp only [busEvents, watchAfter, watchEvent_pinRs hc, selected, watchAfter_append, watchAfter_byteEvents hc,
    watchEvent_dly, waited, busPb]

/-- R77: the events of one bus byte, from between two bytes, are that byte, command or data. -/
theorem watchBytes_busEvents (rs : Bool) (v pb : Byte) :
    watchBytes c ⟨.paired none, pb⟩ (busEvents c rs v pb) = [(rs, v)] := by
  have ⟨_, _, _, hrs8, _⟩ := hc
  simp only [busEvents, watchBytes, watchEvent_pinRs hc, selected, watchBytes_append, watchBytes_byteEvents hc,
    bitOf_setBit _ _ _ hrs8, if_true, watchEvent_dly, List.nil_append, List.append_nil]

theorem watchAfter_busesEvents (bytes : List (Bool × Byte)) (pb : Byte) :
    watchAfter c ⟨.paired none, pb⟩ (busesEvents c bytes pb) = ⟨.paired none, busesPb c bytes pb⟩ := by
  induction bytes generalizing pb with
  | nil => rfl
  | cons byte rest ih =>
    obtain ⟨rs, v⟩ := byte
    simp only [busesEvents, busesPb, watchAfter_append, watchAfter_busEvents hc, ih]

theorem watchBytes_busesEvents (bytes : List (Bool × Byte)) (pb : Byte) :
    watchBytes c ⟨.paired none, pb⟩ (busesEvents c bytes pb) = bytes := by
  induction bytes generalizing pb with
  | nil => rfl
  | cons byte rest ih =>
    obtain ⟨rs, v⟩ := byte
    simp only [busesEvents, watchBytes_append, watchBytes_busEvents hc, watchAfter_busEvents hc, ih,
      List.singleton_append]

/-- R139 a, of a list of bus bytes: each leaves enable low. -/
theorem bitOf_busesPb_pinEn (bytes : List (Bool × Byte)) {pb : Byte} (low : bitOf pb c.pinEn = false) :
    bitOf (busesPb c bytes pb) c.pinEn = false := by
  have ⟨_, hen8, _⟩ := hc
  induction bytes generalizing pb with
  | nil => exact low
  | cons byte rest ih =>
    obtain ⟨rs, v⟩ := byte
    exact ih (by rw [bitOf_busPb hc rs v pb hen8, if_pos rfl])

end

/-- Settles O10, by induction on the list of bus bytes: each one takes the observer from between two bytes to between
two bytes. -/
theorem observerRecoversBusBytes : Obligations.ObserverRecoversBusBytes :=
  fun _ bytes pb hc low => ⟨watchBytes_busesEvents hc bytes pb, bitOf_busesPb_pinEn hc bytes low⟩

end Sys2Proof.Machine
end

section
/-!
Packets (R90 to R95): what each format's reader accepts, said once per format; which reader an opcode selects; and from
these the two directions of the round trip and the exact lengths.
-/

namespace Sys2Proof

/-! ### What the readers accept -/

section
variable {rest : List Byte} {i : Instr}

theorem readN_eq_ok {j : Instr} : readN j rest = .ok i ↔ rest = [] ∧ j = i := by
  unfold readN
  split <;> simp_all

theorem readB_eq_ok {f : Byte → Instr} : readB f rest = .ok i ↔ ∃ a, rest = [a] ∧ f a = i := by
  unfold readB
  split <;> simp_all

theorem readC_eq_ok {f : Byte → Byte → Instr} : readC f rest = .ok i ↔ ∃ a b, rest = [a, b] ∧ f a b = i := by
  unfold readC
  split <;> simp_all

theorem readG_eq_ok {f : Byte → Glyph → Instr} :
    readG f rest = .ok i ↔ ∃ loc g, rest = loc :: Machine.glyphBytes g ∧ f loc g = i := by
  constructor
  · intro h
    unfold readG at h
    split at h
    · exact ⟨_, _, rfl, Except.ok.inj h⟩
    · cases h
  · rintro ⟨loc, g, rfl, rfl⟩
    rfl

theorem readW_eq_ok {f : Word32 → Instr} : readW f rest = .ok i ↔ ∃ v, rest = bytes32 v ∧ f v = i := by
  constructor
  · intro h
    unfold readW at h
    split at h
    · exact ⟨_, (bytes32_le32 _ _ _ _).symm, Except.ok.inj h⟩
    · cases h
  · rintro ⟨v, rfl, rfl⟩
    exact congrArg (fun w => Except.ok (f w)) (le32_bytes32 v)

theorem readS_eq_ok {f : List Byte → Instr} :
    readS f rest = .ok i ↔ ∃ text, fitsLength16 text = true ∧ rest = bytes16 text.length ++ text ∧ f text = i := by
  constructor
  · intro h
    unfold readS at h
    split at h
    · split at h
      case isTrue len =>
        refine ⟨_, ?_, ?_, Except.ok.inj h⟩
        · exact decide_eq_true (len ▸ le16_lt _ _)
        · rw [len, bytes16_le16]
          rfl
      case isFalse => cases h
    · cases h
  · rintro ⟨text, fits, rfl, rfl⟩
    exact if_pos (le16_bytes16 (of_decide_eq_true fits)).symm

theorem readT_eq_ok {f : List Byte → Word32 → Instr} :
    readT f rest = .ok i ↔
      ∃ text ms, fitsLength16 text = true ∧ rest = bytes16 text.length ++ (bytes32 ms ++ text) ∧ f text ms = i := by
  constructor
  · intro h
    unfold readT at h
    split at h
    · split at h
      case isTrue len =>
        refine ⟨_, _, ?_, ?_, Except.ok.inj h⟩
        · exact decide_eq_true (len ▸ le16_lt _ _)
        · rw [len, bytes16_le16, bytes32_le32]
          rfl
      case isFalse => cases h
    · cases h
  · rintro ⟨text, ms, fits, rfl, rfl⟩
    exact (if_pos (le16_bytes16 (of_decide_eq_true fits)).symm).trans
      (congrArg (fun w => Except.ok (f text w)) (le32_bytes32 ms))

theorem readK_eq_ok {f : Byte → List Byte → Instr} :
    readK f rest = .ok i ↔
      ∃ h indices, fitsCount8 indices = true ∧ rest = h :: BitVec.ofNat 8 indices.length :: indices ∧
        f h indices = i := by
  constructor
  · intro h
    unfold readK at h
    split at h
    · split at h
      case isTrue len =>
        refine ⟨_, _, ?_, ?_, Except.ok.inj h⟩
        · exact decide_eq_true (len ▸ BitVec.isLt _)
        · rw [len, BitVec.ofNat_toNat, BitVec.setWidth_eq]
      case isFalse => cases h
    · cases h
  · rintro ⟨h, indices, fits, rfl, rfl⟩
    exact if_pos (Nat.mod_eq_of_lt (of_decide_eq_true fits)).symm

/-- R92 a: a signed byte read back. -/
theorem signedCursor_ofInt {col row : Int} (hc : fitsSigned8 col = true) (hr : fitsSigned8 row = true) :
    signedCursor (BitVec.ofInt 8 col) (BitVec.ofInt 8 row) = .setcur col row := by
  simp only [fitsSigned8, Bool.and_eq_true, decide_eq_true_eq] at hc hr
  simp only [signedCursor, BitVec.toInt_ofInt, Instr.setcur.injEq]
  constructor <;> exact Int.bmod_eq_of_le (by omega) (by omega)

theorem fitsSigned8_toInt (a : Byte) : fitsSigned8 a.toInt = true := by
  have := BitVec.le_toInt a
  have := BitVec.toInt_lt (x := a)
  simp only [fitsSigned8, Bool.and_eq_true, decide_eq_true_eq]
  omega

end

/-! ### Which reader an opcode selects (R91, R93) -/

/-- Under the opcode `op`, packets of format `f` are read by `r`, and what `r` builds from a packet's fields is
well-formed and has that packet. -/
inductive Reads (op : Byte) (r : List Byte → Except DecodeError Instr) : Format → Prop where
  | n (i : Instr) (hr : r = readN i) (wf : i.WellFormed = true) (enc : encode i = [op]) : Reads op r .n
  | b (f : Byte → Instr) (hr : r = readB f) (wf : ∀ a, (f a).WellFormed = true)
      (enc : ∀ a, encode (f a) = [op, a]) : Reads op r .b
  | c (f : Byte → Byte → Instr) (hr : r = readC f) (wf : ∀ a b, (f a b).WellFormed = true)
      (enc : ∀ a b, encode (f a b) = [op, a, b]) : Reads op r .c
  | g (f : Byte → Glyph → Instr) (hr : r = readG f) (wf : ∀ a g, (f a g).WellFormed = true)
      (enc : ∀ a g, encode (f a g) = op :: a :: Machine.glyphBytes g) : Reads op r .g
  | w (f : Word32 → Instr) (hr : r = readW f) (wf : ∀ v, (f v).WellFormed = true)
      (enc : ∀ v, encode (f v) = op :: bytes32 v) : Reads op r .w
  | s (f : List Byte → Instr) (hr : r = readS f) (wf : ∀ text, (f text).WellFormed = fitsLength16 text)
      (enc : ∀ text, encode (f text) = op :: (bytes16 text.length ++ text)) : Reads op r .s
  | t (f : List Byte → Word32 → Instr) (hr : r = readT f)
      (wf : ∀ text ms, (f text ms).WellFormed = fitsLength16 text)
      (enc : ∀ text ms, encode (f text ms) = op :: (bytes16 text.length ++ (bytes32 ms ++ text))) : Reads op r .t
  | k (f : Byte → List Byte → Instr) (hr : r = readK f)
      (wf : ∀ h indices, (f h indices).WellFormed = fitsCount8 indices)
      (enc : ∀ h indices, encode (f h indices) = op :: h :: BitVec.ofNat 8 indices.length :: indices) : Reads op r .k

theorem eq_ofNat_of_toNat_eq {op : Byte} {k : Nat} (h : op.toNat = k) : op = BitVec.ofNat 8 k := by
  rw [← h, BitVec.ofNat_toNat, BitVec.setWidth_eq]

/-- The 28 rows of the opcode table. -/
theorem decodeOp_reads {op : Byte} {f : Format} (h : formatOf op = some f) : Reads op (decodeOp op) f := by
  unfold formatOf at h
  split at h
  all_goals cases h
  all_goals
    rename_i code
    obtain rfl := eq_ofNat_of_toNat_eq code
  · exact .n .init rfl rfl rfl
  · exact .s .write rfl (fun _ => rfl) (fun _ => rfl)
  · refine .c signedCursor rfl (fun a b => ?_) (fun a b => ?_)
    · simp [signedCursor, Instr.WellFormed, fitsSigned8_toInt]
    · simp [signedCursor, encode]
  · exact .n .clear rfl rfl rfl
  · exact .n .home rfl rfl rfl
  · exact .n .dispon rfl rfl rfl
  · exact .n .dispoff rfl rfl rfl
  · exact .n .curon rfl rfl rfl
  · exact .n .curoff rfl rfl rfl
  · exact .n .blinkon rfl rfl rfl
  · exact .n .blinkoff rfl rfl rfl
  · exact .n .blon rfl rfl rfl
  · exact .n .bloff rfl rfl rfl
  · exact .n .ascron rfl rfl rfl
  · exact .n .ascroff rfl rfl rfl
  · exact .n .ltr rfl rfl rfl
  · exact .n .rtl rfl rfl rfl
  · exact .g .storeg rfl (fun _ _ => rfl) (fun _ _ => rfl)
  · exact .b .writeg rfl (fun _ => rfl) (fun _ => rfl)
  · exact .c .regs rfl (fun _ _ => rfl) (fun _ _ => rfl)
  · exact .k .regc rfl (fun _ _ => rfl) (fun _ _ => rfl)
  · exact .w .setint rfl (fun _ => rfl) (fun _ => rfl)
  · exact .n .pollstart rfl rfl rfl
  · exact .n .pollstop rfl rfl rfl
  · exact .s .swrite rfl (fun _ => rfl) (fun _ => rfl)
  · exact .t .swritet rfl (fun _ _ => rfl) (fun _ _ => rfl)
  · exact .b .sdisp rfl (fun _ => rfl) (fun _ => rfl)
  · exact .b .sbl rfl (fun _ => rfl) (fun _ => rfl)

/-- R94 a: an opcode without a format has no row. -/
theorem decodeOp_illegal {op : Byte} (h : formatOf op = none) (rest : List Byte) :
    decodeOp op rest = .error .badOpcode := by
  unfold formatOf at h
  unfold decodeOp
  split at h <;> simp_all

/-! ### What a packet that is read, or not read, looks like -/

section
variable {op : Byte} {r : List Byte → Except DecodeError Instr} {f : Format} {rest : List Byte}

/-- What is read back is the packet that was read. -/
theorem Reads.packet (h : Reads op r f) {i : Instr} (hi : r rest = .ok i) :
    i.WellFormed = true ∧ encode i = op :: rest := by
  cases h with
  | n j hr wf enc =>
    obtain ⟨rfl, rfl⟩ := readN_eq_ok.1 (hr ▸ hi)
    exact ⟨wf, enc⟩
  | b f hr wf enc =>
    obtain ⟨a, rfl, rfl⟩ := readB_eq_ok.1 (hr ▸ hi)
    exact ⟨wf a, enc a⟩
  | c f hr wf enc =>
    obtain ⟨a, b, rfl, rfl⟩ := readC_eq_ok.1 (hr ▸ hi)
    exact ⟨wf a b, enc a b⟩
  | g f hr wf enc =>
    obtain ⟨a, g, rfl, rfl⟩ := readG_eq_ok.1 (hr ▸ hi)
    exact ⟨wf a g, enc a g⟩
  | w f hr wf enc =>
    obtain ⟨v, rfl, rfl⟩ := readW_eq_ok.1 (hr ▸ hi)
    exact ⟨wf v, enc v⟩
  | s f hr wf enc =>
    obtain ⟨text, fits, rfl, rfl⟩ := readS_eq_ok.1 (hr ▸ hi)
    exact ⟨(wf text).trans fits, enc text⟩
  | t f hr wf enc =>
    obtain ⟨text, ms, fits, rfl, rfl⟩ := readT_eq_ok.1 (hr ▸ hi)
    exact ⟨(wf text ms).trans fits, enc text ms⟩
  | k f hr wf enc =>
    obtain ⟨h, indices, fits, rfl, rfl⟩ := readK_eq_ok.1 (hr ▸ hi)
    exact ⟨(wf h indices).trans fits, enc h indices⟩

end

/-- R95: of the packets under an opcode of format `f`, `r` reads those that have the format's length. -/
def ChecksLength (f : Format) (r : List Byte → Except DecodeError Instr) : Prop :=
  ∀ rest : List Byte, ∃ i,
    r rest = if rest.length + 1 = packetLength f (rest.getD 0 0) (rest.getD 1 0) then .ok i else .error .badLength

theorem instr_nonempty : Nonempty Instr := ⟨.init⟩

theorem readN_checksLength (i : Instr) : ChecksLength .n (readN i) := fun rest => by
  rcases rest with _ | ⟨_, rest⟩ <;> simp [readN, packetLength, instr_nonempty]

theorem readB_checksLength (f : Byte → Instr) : ChecksLength .b (readB f) := fun rest => by
  rcases rest with _ | ⟨_, _ | ⟨_, rest⟩⟩ <;> simp [readB, packetLength, instr_nonempty]

theorem readC_checksLength (f : Byte → Byte → Instr) : ChecksLength .c (readC f) := fun rest => by
  rcases rest with _ | ⟨_, _ | ⟨_, _ | ⟨_, rest⟩⟩⟩ <;> simp [readC, packetLength, instr_nonempty]

theorem readW_checksLength (f : Word32 → Instr) : ChecksLength .w (readW f) := fun rest => by
  rcases rest with _ | ⟨_, _ | ⟨_, _ | ⟨_, _ | ⟨_, _ | ⟨_, rest⟩⟩⟩⟩⟩ <;>
    simp [readW, packetLength, instr_nonempty]

theorem readG_checksLength (f : Byte → Glyph → Instr) : ChecksLength .g (readG f) := fun rest => by
  unfold readG
  split
  · exact ⟨_, rfl⟩
  next short =>
    refine ⟨.init, (if_neg fun len => ?_).symm⟩
    match rest, len with
    | [a, r0, r1, r2, r3, r4, r5, r6, r7], _ => exact short _ _ _ _ _ _ _ _ _ rfl

theorem readS_checksLength (f : List Byte → Instr) : ChecksLength .s (readS f) := fun rest => by
  rcases rest with _ | ⟨a, _ | ⟨b, text⟩⟩
  · simp [readS, packetLength, instr_nonempty]; omega
  · simp [readS, packetLength, instr_nonempty]; omega
  · refine ⟨f text, if_congr ?_ rfl rfl⟩
    simp [packetLength]; omega

theorem readT_checksLength (f : List Byte → Word32 → Instr) : ChecksLength .t (readT f) := fun rest => by
  unfold readT
  split
  · refine ⟨_, if_congr ?_ rfl rfl⟩
    simp [packetLength]; omega
  next short =>
    refine ⟨.init, (if_neg fun len => ?_).symm⟩
    obtain ⟨n, hn⟩ : ∃ n, rest.length = n + 6 := by
      simp only [packetLength] at len
      exact ⟨le16 (rest.getD 0 0) (rest.getD 1 0), by omega⟩
    match rest, n, hn with
    | _ :: _ :: _ :: _ :: _ :: _ :: _, _, _ => exact short _ _ _ _ _ _ _ rfl

theorem readK_checksLength (f : Byte → List Byte → Instr) : ChecksLength .k (readK f) := fun rest => by
  rcases rest with _ | ⟨a, _ | ⟨b, text⟩⟩
  · simp [readK, packetLength, instr_nonempty]
  · simp [readK, packetLength, instr_nonempty]
  · refine ⟨f a text, if_congr ?_ rfl rfl⟩
    simp [packetLength]; omega

theorem Reads.checksLength {op : Byte} {r : List Byte → Except DecodeError Instr} {f : Format} (h : Reads op r f) :
    ChecksLength f r := by
  cases h with
  | n i hr => exact hr ▸ readN_checksLength i
  | b f hr => exact hr ▸ readB_checksLength f
  | c f hr => exact hr ▸ readC_checksLength f
  | g f hr => exact hr ▸ readG_checksLength f
  | w f hr => exact hr ▸ readW_checksLength f
  | s f hr => exact hr ▸ readS_checksLength f
  | t f hr => exact hr ▸ readT_checksLength f
  | k f hr => exact hr ▸ readK_checksLength f

/-! ### The statements -/

/-- Settles O1: a fixed packet reads back by computation; the numbers, texts and lists by what their readers accept. -/
theorem decodeEncodeRoundTrip : Obligations.DecodeEncodeRoundTrip := by
  intro i h
  cases i with
  | write text => exact readS_eq_ok.2 ⟨text, h, rfl, rfl⟩
  | swrite text => exact readS_eq_ok.2 ⟨text, h, rfl, rfl⟩
  | swritet text ms => exact readT_eq_ok.2 ⟨text, ms, h, rfl, rfl⟩
  | regc handler indices => exact readK_eq_ok.2 ⟨handler, indices, h, rfl, rfl⟩
  | setint ms => exact readW_eq_ok.2 ⟨ms, rfl, rfl⟩
  | setcur col row =>
    have ⟨hc, hr⟩ := (Bool.and_eq_true _ _).mp h
    exact congrArg Except.ok (signedCursor_ofInt hc hr)
  | _ => rfl

/-- Settles O2: a packet that decodes has a legal opcode, whose reader gives back what it read. -/
theorem packetsHaveOneMeaning : Obligations.PacketsHaveOneMeaning := by
  intro bytes i h
  match bytes with
  | op :: rest =>
    cases hf : formatOf op with
    | none => cases (decodeOp_illegal hf rest).symm.trans h
    | some f => exact (decodeOp_reads hf).packet h

/-- Settles O3: an illegal opcode has no row, and a legal opcode's reader tests the length alone. -/
theorem packetLengthDecidesDecoding : Obligations.PacketLengthDecidesDecoding := by
  refine ⟨rfl, fun op rest hf => decodeOp_illegal hf rest, fun op rest f hf => ?_⟩
  obtain ⟨i, hi⟩ := (decodeOp_reads hf).checksLength rest
  exact ⟨fun len => ⟨i, hi.trans (if_pos len)⟩, fun len => hi.trans (if_neg len)⟩

/-- Settles O4: each packet is evaluated. -/
theorem samplePacketsDecode : Obligations.SamplePacketsDecode := by
  unfold Obligations.SamplePacketsDecode
  decide

end Sys2Proof
end

section
/-!
WRITE in a quiet schedule (R161, R162): the bus bytes and the cursor of a text, and what two texts written one after the
other come to; and one bus byte event by event (R102).
-/

namespace Sys2Proof.Machine

open Sys2Proof.Claims

/-- Settles O7: `sendBus_quiet`, its fourteen events and the values of its latch written out. -/
theorem busByteOnThePins : Obligations.BusByteOnThePins := fun _ rs v hs => sendBus_quiet hs rs v

/-! ### The text of a WRITE -/

/-- `s` with its cursor moved. -/
def atCursor (cursor : Byte × Byte) (s : State) : State := { s with addr := cursor.1, row := cursor.2 }

/-- Two runs of events, each with the cursor it leaves, are one run with the last cursor. -/
theorem played_atCursor (es es' : List Event) (pb pb' : Byte) (cursor cursor' : Byte × Byte) (s : State) :
    played es' pb' (atCursor cursor' (played es pb (atCursor cursor s))) = played (es ++ es') pb' (atCursor cursor' s) :=
  played_played es es' pb pb' (atCursor cursor' s)

/-- R162: the set-address command to column 0 of the next row. -/
theorem newline_quiet {s : State} (h : Quiet s) :
    newline s =
      .ok (played (busEvents s.cfg false (s.cfg.cmdSetDdram ||| reduceDdram (rowOffset (nextRow s.row).toNat)) s.pb)
        (busPb s.cfg false (s.cfg.cmdSetDdram ||| reduceDdram (rowOffset (nextRow s.row).toNat)) s.pb)
        (atCursor (reduceDdram (rowOffset (nextRow s.row).toNat), nextRow s.row) s)) := by
  simp only [newline, setDdram]
  rw [sendCommand_quiet (by exact h)]
  rfl

/-- R161: the character, and the next address. -/
theorem sendChar_quiet {s : State} (h : Quiet s) (d : Byte) :
    sendChar d s = .ok (played (busEvents s.cfg true d s.pb) (busPb s.cfg true d s.pb)
      (atCursor (nextAddr s.addr, s.row) s)) := by
  rw [sendChar, sendData_quiet h]
  rfl

/-- R161, R162: in a quiet schedule a text leaves its bus bytes and its cursor. -/
theorem writeText_quiet (text : List Byte) {s : State} (h : Quiet s) :
    writeText text s = .ok (played (busesEvents s.cfg (textBytes s.cfg text s.addr s.row) s.pb)
      (busesPb s.cfg (textBytes s.cfg text s.addr s.row) s.pb)
      (atCursor (textCursor s.cfg text s.addr s.row) s)) := by
  induction text generalizing s with
  | nil => simp [writeText, textBytes, textCursor, played, busesEvents, busesPb, atCursor]
  | cons b rest ih =>
    by_cases hb : b = s.cfg.newline
    · simp only [writeText, textBytes, textCursor, if_pos hb, newline_quiet h, bind_ok]
      rw [ih (by exact h)]
      exact congrArg Except.ok (played_atCursor _ _ _ _ _ _ s)
    · simp only [writeText, textBytes, textCursor, if_neg hb, sendChar_quiet h, bind_ok]
      rw [ih (by exact h)]
      exact congrArg Except.ok (played_atCursor _ _ _ _ _ _ s)

/-- R161: the whole body, the set-address command first. -/
theorem writeBody_quiet (text : List Byte) {s : State} (h : Quiet s) :
    writeBody text s = .ok (played (busesEvents s.cfg (writeBytes s.cfg text s.addr s.row) s.pb)
      (busesPb s.cfg (writeBytes s.cfg text s.addr s.row) s.pb)
      (atCursor (textCursor s.cfg text s.addr s.row) s)) := by
  rw [writeBody, sendCursor, sendCommand_quiet h, bind_ok, writeText_quiet text (quiet_played h _ _)]
  exact congrArg Except.ok (played_atCursor _ _ _ _ (s.addr, s.row) _ s)

/-- R161: a WRITE that may start sends its bus bytes, leaves the cursor of its text and answers the address. -/
theorem exec_write_ready {s : State} (h : Ready s) (text : List Byte) :
    exec (.write text) s = .next (answered s (writeBytes s.cfg text s.addr s.row)
      (textCursor s.cfg text s.addr s.row).1 (atCursor (textCursor s.cfg text s.addr s.row) s)) := by
  refine lcdOp_answers h (v := (textCursor s.cfg text s.addr s.row).1) (writeBody_quiet text (by exact h.2.2)) rfl ?_
  simp only [answered, atCursor, respond, emit, played, List.append_assoc, ← h.2.1]

/-! ### Two texts -/

theorem textCursor_append (c : Config) (first second : List Byte) (addr row : Byte) :
    textCursor c (first ++ second) addr row =
      textCursor c second (textCursor c first addr row).1 (textCursor c first addr row).2 := by
  induction first generalizing addr row with
  | nil => rfl
  | cons b rest ih =>
    simp only [List.cons_append, textCursor]
    split <;> exact ih _ _

theorem textBytes_append (c : Config) (first second : List Byte) (addr row : Byte) :
    textBytes c (first ++ second) addr row = textBytes c first addr row ++
      textBytes c second (textCursor c first addr row).1 (textCursor c first addr row).2 := by
  induction first generalizing addr row with
  | nil => rfl
  | cons b rest ih =>
    simp only [List.cons_append, textBytes, textCursor]
    split <;> simp only [ih, List.cons_append]

theorem writeBytes_append (c : Config) (first second : List Byte) (addr row : Byte) :
    writeBytes c (first ++ second) addr row = writeBytes c first addr row ++
      textBytes c second (textCursor c first addr row).1 (textCursor c first addr row).2 :=
  congrArg (List.cons _) (textBytes_append c first second addr row)

/-- Settles O18: the second piece starts at the first one's cursor, and the observer recovers each WRITE's bus bytes;
what both ways send after the first piece is the second piece's text. -/
theorem splitTextLandsAlike : Obligations.SplitTextLandsAlike := by
  intro s first second ready pins _
  have cursor := textCursor_append s.cfg first second s.addr s.row
  have seen := fun bytes pb => watchBytes_busesEvents pins bytes pb
  refine ⟨_, _, _, _, _, _, _, _, _, exec_write_ready ready (first ++ second), exec_write_ready ready first,
    exec_write_ready (by exact ready) second, rfl, rfl, rfl, ?_, ?_,
    textBytes s.cfg second (textCursor s.cfg first s.addr s.row).1 (textCursor s.cfg first s.addr s.row).2, ?_, ?_⟩
  · exact congrArg Prod.fst cursor.symm
  · exact congrArg Prod.snd cursor.symm
  · exact (seen _ _).trans ((writeBytes_append _ _ _ _ _).trans (congrArg (· ++ _) (seen _ _).symm))
  · exact seen _ _

end Sys2Proof.Machine
end

section
/-!
One step of the block (R90, R266, R300): the head of the schedule is taken and its agent moves; the packet it may carry,
and the last pieces of a tick (R101, R216, R219).
-/

namespace Sys2Proof.Machine

open Sys2Proof.Claims

section
variable {s : State} {a : Act} {c : Ctx} {bytes : List Byte} {w : List Slot} {rest : List Turn}

theorem step_turn (h : s.agenda = ⟨a, w⟩ :: rest) : step s = takeTurn a (taken w rest s) := by
  unfold step
  rw [h]
  rfl

theorem takePacket_decoded {i : Instr} (may : packetBreach c s = none) (h : decode bytes = .ok i) :
    takePacket c bytes s = exec i { s with issuer := c } := by
  simp only [takePacket, may, h]

theorem takePacket_undecodable {e : DecodeError} (may : packetBreach c s = none) (h : decode bytes = .error e) :
    takePacket c bytes s = .next (refusePacket c e s) := by
  simp only [takePacket, may, h]

/-- R101: the handler returns. -/
theorem act_hret {h : Byte} (running : s.tick = .inHandler h) (free : contextBusy .handler s = false) (ok : Bool) :
    act (.hret ok) s = .ok (handlerReturns h ok s) := by
  simp [act, running, free]

/-- R216: the step of POLLT after `HRET`. -/
theorem act_pollt_returned {h : Byte} {ok : Bool} (live : s.halted = false) (back : s.tick = .returned h ok)
    (readOk : Bool) : act (.pollt readOk) s = .ok (tickReturn h ok s) := by
  simp [act, polltStep, live, back]

end

/-- Settles O5. -/
theorem stepRunsDecodedPacket : Obligations.StepRunsDecodedPacket := by
  refine ⟨fun s c bytes w rest i hs may hi => ?_, fun s hs => ?_⟩
  · exact (step_turn hs).trans (takePacket_decoded may hi)
  · simp only [step, hs]

/-- Settles O6. -/
theorem undecodablePacketRefused : Obligations.UndecodablePacketRefused :=
  fun _ _ _ _ _ _ hs may he => (step_turn hs).trans (takePacket_undecodable may he)

/-- Settles O38: the handler returns; then the tick ends, or the raise of a failed handler halts the block. -/
theorem handlerReturnEndsTick : Obligations.HandlerReturnEndsTick := by
  refine ⟨fun s ok w rest h hs running free => ?_, fun s readOk w rest h hs live back => ?_,
    fun s readOk w rest h hs live back => ?_⟩
  · exact (step_turn hs).trans (congrArg conclude (act_hret (s := taken w rest s) running free ok))
  · exact (step_turn hs).trans (congrArg conclude (act_pollt_returned (s := taken w rest s) live back readOk))
  · exact (step_turn hs).trans (congrArg conclude (act_pollt_returned (s := taken w rest s) live back readOk))

end Sys2Proof.Machine
end

section
/-!
The events of the transfer primitives (R131 to R135, R138, R139): their number, by kind, the least time they take, and
the levels of the control lines they read and leave.
-/

namespace Sys2Proof.Machine

open Sys2Proof.Claims

/-- R138 a to d: a primitive that plays a list of events in a quiet schedule has as many events as the list. -/
theorem eventCount_of_played {r : Except Stop State} {s : State} {es : List Event} {pb : Byte} {n : Nat}
    (h : r = .ok (played es pb s)) (hn : es.length = n) :
    ∃ t es, r = .ok t ∧ t.trace = s.trace ++ es ∧ es.length = n := ⟨_, es, h, rfl, hn⟩

/-- R138: the bit writes of a bus byte, by line. -/
theorem count_isBwOf_busEvents {c : Config} (hc : c.PinsOk) (rs : Bool) (v pb : Byte) :
    count (isBwOf c.pinRs) (busEvents c rs v pb) = 1 ∧ count (isBwOf c.pinEn) (busEvents c rs v pb) = 4 := by
  have ⟨_, _, _, _, _, _, hne, _⟩ := hc
  simp [count, busEvents, byteEvents, nibbleEvents, pulseEvents, isBwOf, hne, hne.symm]

theorem leastDuration_append (c : Config) (es fs : List Event) :
    leastDuration c (es ++ fs) = leastDuration c es + leastDuration c fs := by
  induction es with
  | nil => exact (Nat.zero_add _).symm
  | cons e rest ih =>
    cases e with
    | dly t => simp only [List.cons_append, leastDuration, ih, Nat.add_assoc]
    | _ => exact ih

/-- R321: the delays of a strobed nibble. -/
theorem leastDuration_nibbleEvents (c : Config) (n : Nibble) (pb : Byte) :
    leastDuration c (nibbleEvents c n pb) = 2 * c.tPulse := by
  simp only [nibbleEvents, pulseEvents, leastDuration, waitTime]
  omega

/-- R138: the least time of one bus byte. -/
theorem leastDuration_busEvents (c : Config) (rs : Bool) (v pb : Byte) :
    leastDuration c (busEvents c rs v pb) = 4 * c.tPulse + c.tSettle := by
  simp only [busEvents, byteEvents, leastDuration, leastDuration_append, leastDuration_nibbleEvents, waitTime]
  omega

/-- Settles O8: each primitive plays its list of events; a bus byte's are counted by kind. -/
theorem eventCountsOfPrimitives : Obligations.EventCountsOfPrimitives := by
  intro s hs
  refine ⟨fun b => eventCount_of_played (bitWrite_quiet hs _ b) rfl, eventCount_of_played (pulseEnable_quiet hs) rfl,
    fun n => eventCount_of_played (sendNibble_quiet hs n) rfl, fun v => eventCount_of_played (sendByte_quiet hs v) rfl,
    fun rs v => ?_⟩
  have sent : (if rs then sendData v s else sendCommand v s) =
      .ok (played (busEvents s.cfg rs v s.pb) (busPb s.cfg rs v s.pb) s) := by
    cases rs <;> exact sendBus_quiet hs _ v
  have time := leastDuration_busEvents s.cfg rs v s.pb
  refine ⟨_, _, sent, rfl, rfl, rfl, rfl, rfl, rfl, rfl, rfl, fun hc => count_isBwOf_busEvents hc rs v s.pb, time,
    fun hp => time.trans ?_⟩
  rw [hp]
  rfl

/-- R139 b: enable is low at both reads of a bus byte. -/
theorem pinEn_low_of_read {c : Config} (hc : c.PinsOk) {rs : Bool} {v pb p : Byte} (low : bitOf pb c.pinEn = false)
    (h : .rd .pb p ∈ busEvents c rs v pb) : bitOf p c.pinEn = false := by
  have ⟨_, hen8, _, _, _, _, hne, _⟩ := hc
  have hp : p = setBit pb c.pinRs rs ∨ p = nibblePb c (highNibble v) (setBit pb c.pinRs rs) := by
    simpa [busEvents, byteEvents, nibbleEvents, pulseEvents] using h
  rcases hp with rfl | rfl
  · rw [bitOf_setBit _ _ _ hen8, if_neg hne, low]
  · rw [bitOf_nibblePb hc _ _ hen8, if_pos rfl]

/-- Settles O9: what a bus byte leaves on each line is `bitOf_busPb`. -/
theorem transfersKeepControlLines : Obligations.TransfersKeepControlLines := by
  intro s t rs v hs hc low ht
  cases (sendBus_quiet hs rs v).symm.trans ht
  have ⟨_, hen8, hrs, hrs8, _, _, hne, _⟩ := hc
  refine ⟨?_, ⟨_, rfl, fun p hp => pinEn_low_of_read hc low hp⟩, fun k hk hk8 hkrs hken => ?_, ?_,
    lowNibble_nibblePb hc _ _⟩
  · rw [played_pb, bitOf_busPb hc rs v s.pb hen8, if_pos rfl]
  · rw [played_pb, bitOf_busPb hc rs v s.pb hk8, if_neg hken, if_neg (by omega), if_neg hkrs]
  · rw [played_pb, bitOf_busPb hc rs v s.pb hrs8, if_neg hne.symm, if_neg (by omega), if_pos rfl]

end Sys2Proof.Machine
end

section
/-!
INIT (R137, R302, R324) in a quiet schedule: the state it leaves; its events, by kind, and the least time they take
(R321); and what the observer sees of it (R77), whatever framing it was in.
-/

namespace Sys2Proof.Machine

open Sys2Proof.Claims

/-! ### The sequence -/

theorem rawNibble_quiet {s : State} (h : Quiet s) (n : Nibble) :
    rawNibble n s = .ok (played (rawEvents s.cfg n s.pb) (nibblePb s.cfg n s.pb) s) := by
  simp only [rawNibble, sendNibble_quiet h, bind_ok, delay_quiet (quiet_played h _ _), played_played, played_pb, rawEvents]

theorem legacyReset_quiet {s : State} (h : Quiet s) (t : Wait) :
    legacyReset t s = .ok (played (.dly t :: rawEvents s.cfg s.cfg.nibReset8 s.pb)
      (nibblePb s.cfg s.cfg.nibReset8 s.pb) s) := by
  simp only [legacyReset, delay_quiet h, bind_ok, rawNibble_quiet (quiet_played h _ _), played_played, played_pb,
    played_cfg, List.singleton_append]

/-- R137: up to the drop to 4-bit mode. -/
theorem initRaw_quiet {s : State} (h : Quiet s) :
    initRaw s = .ok (played (initRawEvents s.cfg s.pb) (initRawPb s.cfg s.pb) s) := by
  simp only [initRaw, setRs, bitWrite_quiet h, bind_ok, legacyReset_quiet (quiet_played h _ _),
    rawNibble_quiet (quiet_played h _ _), played_played, played_pb, played_cfg]
  rfl

/-- R137: `FS` is loaded. -/
def loadFs (s : State) : State := { s with fs := s.cfg.initFs }

/-- R137: `DC` is loaded. -/
def loadDc (s : State) : State := { s with dc := s.cfg.initDc }

/-- R137: `EM` is loaded. -/
def loadEm (s : State) : State := { s with em := s.cfg.initEm }

/-- The register writes of INIT's second half, without its events. -/
def initLoaded (s : State) : State := markInit (cursorHome (loadEm (loadDc (loadFs s))))

/-- The second half, written with its loads. -/
theorem initFlags_eq (s : State) :
    initFlags s = (sendCommand (funcSetByte (loadFs s)) (loadFs s) >>= fun s =>
      sendCommand (dispCtrlByte (loadDc s)) (loadDc s) >>= fun s =>
      sendCommand (entryModeByte (loadEm s)) (loadEm s) >>= fun s =>
      sendSlowCommand s.cfg.cmdClear s >>= fun s => .ok (markInit (cursorHome s))) := rfl

section
variable (es : List Event) (pb : Byte) (s : State)

theorem loadDc_played : loadDc (played es pb s) = played es pb (loadDc s) := rfl
theorem loadEm_played : loadEm (played es pb s) = played es pb (loadEm s) := rfl
theorem cursorHome_played : cursorHome (played es pb s) = played es pb (cursorHome s) := rfl
theorem markInit_played : markInit (played es pb s) = played es pb (markInit s) := rfl

end

/-- R137: from function set on. -/
theorem initFlags_quiet {s : State} (h : Quiet s) :
    initFlags s = .ok (played (busesEvents s.cfg (initBytes s.cfg) s.pb ++ [.dly .clear])
      (busesPb s.cfg (initBytes s.cfg) s.pb) (initLoaded s)) := by
  rw [initFlags_eq, sendCommand_quiet (by exact h), bind_ok, sendCommand_quiet (by exact h), bind_ok,
    sendCommand_quiet (by exact h), bind_ok, sendSlowCommand_quiet (by exact h), bind_ok]
  simp only [loadDc_played, loadEm_played, cursorHome_played, markInit_played, played_played, played_pb, played_cfg,
    initBytes, busesEvents, busesPb, List.append_assoc, List.nil_append]
  rfl

/-- R137: the whole sequence. -/
theorem initBody_quiet {s : State} (h : Quiet s) :
    initBody s = .ok (played (initEvents s.cfg s.pb) (busesPb s.cfg (initBytes s.cfg) (initRawPb s.cfg s.pb))
      (initLoaded s)) := by
  rw [initBody, initRaw_quiet h, bind_ok, initFlags_quiet (quiet_played h _ _), initEvents, List.append_assoc]
  exact congrArg Except.ok (played_played _ _ (initRawPb s.cfg s.pb) _ (initLoaded s))

/-- Settles O12: the sequence runs with the sequencer taken, then answers. -/
theorem initCompletes : Obligations.InitCompletes := by
  intro s h
  refine lcdOp_answers h (v := 0) (initBody_quiet (by exact h.2.2)) rfl ?_
  simp only [respond, emit, played, initLoaded, markInit, cursorHome, loadEm, loadDc, loadFs, List.append_assoc, ← h.2.1]

/-! ### The events -/

theorem latchAfter_append (pb : Byte) (es fs : List Event) :
    latchAfter pb (es ++ fs) = latchAfter (latchAfter pb es) fs := by
  induction es generalizing pb with
  | nil => rfl
  | cons e rest ih =>
    cases e with
    | wr r v => cases r <;> exact ih _
    | bw r i b => cases r <;> exact ih _
    | _ => exact ih _

theorem latched_append (c : Config) (pb : Byte) (es fs : List Event) :
    latched c pb (es ++ fs) = latched c pb es ++ latched c (latchAfter pb es) fs := by
  induction es generalizing pb with
  | nil => rfl
  | cons e rest ih =>
    cases e with
    | wr r v => cases r <;> exact ih _
    | bw r i b =>
      cases r with
      | sw => exact ih _
      | pb =>
        simp only [List.cons_append, latched, latchAfter, ih]
        split <;> rfl
    | _ => exact ih _

theorem leastDuration_rawEvents (c : Config) (n : Nibble) (pb : Byte) :
    leastDuration c (rawEvents c n pb) = 2 * c.tPulse + c.tSettle := by
  simp only [rawEvents, leastDuration_append, leastDuration_nibbleEvents, leastDuration, waitTime, Nat.add_zero]

theorem leastDuration_busesEvents (c : Config) (bytes : List (Bool × Byte)) (pb : Byte) :
    leastDuration c (busesEvents c bytes pb) = bytes.length * (4 * c.tPulse + c.tSettle) := by
  induction bytes generalizing pb with
  | nil => exact (Nat.zero_mul _).symm
  | cons byte rest ih =>
    rw [busesEvents, leastDuration_append, leastDuration_busEvents, ih, List.length_cons, Nat.add_mul, Nat.one_mul, Nat.add_comm]

/-- R321: the least time of an INIT. -/
theorem leastDuration_initEvents (c : Config) (pb : Byte) :
    leastDuration c (initEvents c pb) =
      c.tSetup0 + c.tSetup1 + c.tSetup2 + 4 * (2 * c.tPulse + c.tSettle) + 4 * (4 * c.tPulse + c.tSettle) + c.tClear := by
  simp only [initEvents, initRawEvents, leastDuration_append, leastDuration_rawEvents, leastDuration_busesEvents,
    leastDuration, waitTime, initBytes, List.length_cons, List.length_nil]
  omega

/-- How many events a trace has, and how many reads, writes, single-bit writes and delays. -/
def kinds (es : List Event) : Nat × Nat × Nat × Nat × Nat :=
  (es.length, count isRd es, count isWr es, count isBw es, count isDly es)

theorem kinds_append (es fs : List Event) : kinds (es ++ fs) = kinds es + kinds fs := by
  simp only [kinds, count, List.filter_append, List.length_append, Prod.mk_add_mk]

theorem kinds_rawEvents (c : Config) (n : Nibble) (pb : Byte) : kinds (rawEvents c n pb) = (7, 1, 1, 2, 3) := rfl

theorem kinds_busEvents (c : Config) (rs : Bool) (v pb : Byte) : kinds (busEvents c rs v pb) = (14, 2, 2, 5, 5) := rfl

/-- R137: the events of an INIT, by kind. -/
theorem kinds_initEvents (c : Config) (pb : Byte) : kinds (initEvents c pb) = (89, 12, 12, 29, 36) := by
  simp only [initEvents, initRawEvents, initBytes, busesEvents, kinds_append, kinds_rawEvents, kinds_busEvents]
  rfl

/-! ### What the observer sees -/

section
variable {c : Config} (hc : c.PinsOk)
include hc

/-- The falling edge that ends a strobe is the one event of a nibble that latches. -/
theorem latched_nibbleEvents (n : Nibble) (pb : Byte) :
    latched c pb (nibbleEvents c n pb) = [(bitOf pb c.pinRs, n)] := by
  have ⟨_, hen8, _⟩ := hc
  have high : bitOf (setBit (putNibble pb n) c.pinEn true) c.pinEn = true := by rw [bitOf_setBit _ _ _ hen8, if_pos rfl]
  have latch : setBit (setBit (putNibble pb n) c.pinEn true) c.pinEn false = nibblePb c n pb := rfl
  simp [nibbleEvents, pulseEvents, latched, high, latch, bitOf_nibblePb_pinRs hc, lowNibble_nibblePb hc]

theorem latched_rawEvents (n : Nibble) (pb : Byte) :
    latched c pb (rawEvents c n pb) = [(bitOf pb c.pinRs, n)] := by
  simp only [rawEvents, latched_append, latched_nibbleEvents hc, latched, List.append_nil]

theorem watchAfter_rawEvents (f : Framing) (n : Nibble) (pb : Byte) :
    watchAfter c ⟨f, pb⟩ (rawEvents c n pb) = ⟨(strobe f (bitOf pb c.pinRs, n)).1, nibblePb c n pb⟩ := by
  simp only [rawEvents, watchAfter_append, watchAfter_nibbleEvents hc, watchAfter, watchEvent_dly, waited]

theorem watchBytes_rawEvents (f : Framing) (n : Nibble) (pb : Byte) :
    watchBytes c ⟨f, pb⟩ (rawEvents c n pb) = (strobe f (bitOf pb c.pinRs, n)).2 := by
  simp only [rawEvents, watchBytes_append, watchBytes_nibbleEvents hc, watchBytes, watchEvent_dly, List.append_nil]

/-- R77: the four raw nibbles, latched with RS low. -/
theorem latched_initRawEvents (pb : Byte) :
    latched c pb (initRawEvents c pb) =
      [(false, c.nibReset8), (false, c.nibReset8), (false, c.nibReset8), (false, c.nibTo4bit)] := by
  have ⟨_, _, _, hrs8, _, _, hne, _⟩ := hc
  have after (n : Nibble) (pb : Byte) : latchAfter pb (rawEvents c n pb) = nibblePb c n pb := rfl
  simp only [initRawEvents, List.cons_append, List.nil_append, List.append_assoc, latched, latched_append,
    latched_rawEvents hc, after, bitOf_nibblePb_pinRs hc, bitOf_setBit _ _ _ hrs8, hne.symm, false_and, if_true, if_false]

theorem take_latched_initEvents (pb : Byte) :
    (latched c pb (initEvents c pb)).take 4 =
      [(false, c.nibReset8), (false, c.nibReset8), (false, c.nibReset8), (false, c.nibTo4bit)] := by
  rw [initEvents, List.append_assoc, latched_append, latched_initRawEvents hc]
  rfl

/-- R77: whatever the framing, the setup delays give it up, and after the drop to 4-bit mode bytes are paired. -/
theorem watchAfter_initRawEvents (f : Framing) (pb : Byte) :
    watchAfter c ⟨f, pb⟩ (initRawEvents c pb) = ⟨.paired none, initRawPb c pb⟩ := by
  simp only [initRawEvents, List.cons_append, List.nil_append, List.append_assoc, watchAfter, watchAfter_append,
    watchAfter_rawEvents hc, watchEvent_pinRs hc, watchEvent_dly, waited, strobe, initRawPb]

/-- R77: no raw nibble is half of a bus byte. -/
theorem watchBytes_initRawEvents (f : Framing) (pb : Byte) : watchBytes c ⟨f, pb⟩ (initRawEvents c pb) = [] := by
  simp only [initRawEvents, List.cons_append, List.nil_append, List.append_assoc, watchBytes, watchBytes_append,
    watchBytes_rawEvents hc, watchAfter_rawEvents hc, watchEvent_pinRs hc, watchEvent_dly, waited, strobe]

/-- R77: after the drop the observer is between two bytes, and so it is at the end. -/
theorem watchAfter_initEvents (f : Framing) (pb : Byte) :
    watchAfter c ⟨f, pb⟩ (initEvents c pb) = ⟨.paired none, busesPb c (initBytes c) (initRawPb c pb)⟩ := by
  simp only [initEvents, watchAfter_append, watchAfter_initRawEvents hc, watchAfter_busesEvents hc, watchAfter,
    watchEvent_dly, waited]

theorem watchBytes_initEvents (f : Framing) (pb : Byte) : watchBytes c ⟨f, pb⟩ (initEvents c pb) = initBytes c := by
  simp only [initEvents, watchBytes_append, watchAfter_append, watchBytes_initRawEvents hc, watchAfter_initRawEvents hc,
    watchBytes_busesEvents hc, watchBytes, watchEvent_dly, List.nil_append, List.append_nil]

end

/-- Settles O13: INIT plays `initEvents`, which the observer reads in two parts, the raw nibbles and the bus bytes. -/
theorem initReachesFourBitMode : Obligations.InitReachesFourBitMode := by
  intro s h hc _
  have events := kinds_initEvents s.cfg s.pb
  simp only [kinds, Prod.mk.injEq] at events
  obtain ⟨length, reads, writes, bits, delays⟩ := events
  exact ⟨_, initEvents s.cfg s.pb, initCompletes s h, rfl, length, reads, writes, bits, delays, take_latched_initEvents hc s.pb,
    fun f => ⟨watchBytes_initEvents hc f s.pb, watchAfter_initEvents hc f s.pb⟩, leastDuration_initEvents s.cfg s.pb⟩

end Sys2Proof.Machine
end

section
/-!
A failed register access (R136, R261, R262, R271): each piece of an operation plays its events one at a time, and with
the access after some of them failed it stops there, with those events, the latch they leave and that position. `Precise`
says it of one piece from one state, and is closed under what the pieces are put together with.
-/

namespace Sys2Proof.Machine

open Sys2Proof.Claims

/-! ### Two points of an activity -/

/-- What a fault records, reports and leaves of an activity: of the registers only those the operation does not load. -/
def activity (s : State) : State :=
  { State.reset with
    pb := s.pb
    seq := s.seq
    trace := s.trace
    halted := s.halted
    fault := s.fault
    raises := s.raises
    devOpen := s.devOpen
    issuer := s.issuer
    weave := s.weave }

/-- The activity is at `s` before the events `es`, and at `t` after them; registers may have been loaded meanwhile. -/
def Plays (es : List Event) (s t : State) : Prop := activity t = activity (played es (latchAfter s.pb es) s)

/-- The activity is at `s` before the events `es`, and the access after them fails. -/
def FailsAfter (es : List Event) (s : State) (r : Except Stop State) : Prop :=
  ∃ t, Plays es s t ∧ r = .error (.ended (raiseFault (ownerOf t) (ioFaultOf t) t))

section
variable {es es' : List Event} {s t u : State}

theorem Plays.trans (h : Plays es s t) (k : Plays es' t u) : Plays (es ++ es') s u := by
  have seen : activity (played es' (latchAfter t.pb es') t) =
      played es' (latchAfter (activity t).pb es') (activity t) := rfl
  rw [Plays, k, seen, h, latchAfter_append, ← played_played]
  rfl

/-- Registers are loaded. -/
theorem Plays.loaded (h : activity t = activity s) : Plays [] s t := by
  rw [Plays, h]
  simp [activity, played, latchAfter]

theorem Plays.trace (h : Plays es s t) : t.trace = s.trace ++ es := congrArg (fun u => u.trace) h
theorem Plays.pb (h : Plays es s t) : t.pb = latchAfter s.pb es := congrArg (fun u => u.pb) h
theorem Plays.seq (h : Plays es s t) : t.seq = Seq.advance^[es.length] s.seq := congrArg (fun u => u.seq) h
theorem Plays.halted (h : Plays es s t) : t.halted = s.halted := congrArg (fun u => u.halted) h
theorem Plays.fault (h : Plays es s t) : t.fault = s.fault := congrArg (fun u => u.fault) h
theorem Plays.raises (h : Plays es s t) : t.raises = s.raises := congrArg (fun u => u.raises) h
theorem Plays.issuer (h : Plays es s t) : t.issuer = s.issuer := congrArg (fun u => u.issuer) h

theorem Plays.quiet (h : Plays es s t) (hs : Quiet s) : Quiet t :=
  ⟨(congrArg (fun u => u.devOpen) h).trans hs.1, (congrArg (fun u => u.weave) h).trans hs.2⟩

theorem FailsAfter.after {r : Except Stop State} (h : FailsAfter es' t r) (k : Plays es s t) :
    FailsAfter (es ++ es') s r := by
  obtain ⟨u, p, hr⟩ := h
  exact ⟨u, k.trans p, hr⟩

theorem FailsAfter.bind {r : Except Stop State} (h : FailsAfter es s r) (g : State → Except Stop State) :
    FailsAfter es s (r >>= g) := by
  obtain ⟨t, p, rfl⟩ := h
  exact ⟨t, p, rfl⟩

end

/-! ### Pieces -/

/-- `s` with a schedule in which event number `k` fails if it is a register access, and nothing intervenes. -/
def armed (k : Nat) (s : State) : State := { s with weave := failAt k }

/-- In the quiet schedule the piece `f` of an operation plays some events from `s`, and ends or waits for ever; where one
of them is an access that fails, it stops there; and a failure after them is left to what follows. -/
def Precise (f : State → Except Stop State) (s : State) : Prop :=
  Quiet s → ∃ es t, Plays es s t ∧ (∀ e ∈ es, isLcdEvent e = true) ∧
    (∀ k e, es[k]? = some e → isAccess e = true → FailsAfter (es.take k) s (f (armed k s))) ∧
    (f s = .error (.ended t) ∨ f s = .ok t ∧ ∀ k, f (armed (es.length + k) s) = .ok (armed k t))

section
variable {f g : State → Except Stop State} {s : State}

theorem Precise.bind (hf : Precise f s) (hg : ∀ t, Precise g t) : Precise (fun s => f s >>= g) s := by
  intro hs
  obtain ⟨es, t, p, lcd, fails, stop | ⟨ok, on⟩⟩ := hf hs
  · exact ⟨es, t, p, lcd, fun k e hk he => (fails k e hk he).bind g, .inl (congrArg (· >>= g) stop)⟩
  · obtain ⟨es', u, p', lcd', fails', ends'⟩ := hg t (p.quiet hs)
    refine ⟨es ++ es', u, p.trans p', List.forall_mem_append.mpr ⟨lcd, lcd'⟩, fun k e hk he => ?_, ?_⟩
    · by_cases hlt : k < es.length
      · rw [List.getElem?_append_left hlt] at hk
        rw [List.take_append_of_le_length hlt.le]
        exact (fails k e hk he).bind g
      · obtain ⟨j, rfl⟩ := Nat.exists_eq_add_of_le (Nat.le_of_not_lt hlt)
        rw [List.getElem?_append_right (Nat.le_add_right _ _), Nat.add_sub_cancel_left] at hk
        simp only [List.take_length_add_append, on, bind_ok]
        exact (fails' j e hk he).after p
    · simp only [ok, bind_ok, List.length_append, Nat.add_assoc, on]
      exact ends'

section
variable (e : Event) (v : Byte) (ho : s.devOpen = true)
include ho

/-- The access that fails. -/
theorem access_armed_zero :
    access e v (armed 0 s) = .error (.ended (raiseFault (ownerOf s) (ioFaultOf s) (quieted s))) := by
  rw [access, if_pos (by exact ho)]
  rfl

/-- An access before it. -/
theorem access_armed_succ (k : Nat) : access e v (armed (k + 1) s) = .ok (armed k (played [e] v s)) := by
  rw [access, if_pos (by exact ho)]
  rfl

end

theorem isLcdEvent_of_isAccess {e : Event} (h : isAccess e = true) : isLcdEvent e = true := by
  cases e with
  | dly => rfl
  | _ => exact h

/-- A register access whose event leaves the latch as it says. -/
theorem access_precise {e : Event} {v : Byte} (hv : latchAfter s.pb [e] = v) (he : isAccess e = true) :
    Precise (access e v) s := by
  intro hs
  refine ⟨[e], played [e] v s, by rw [Plays, hv], by simpa using isLcdEvent_of_isAccess he, fun k e' hk _ => ?_, .inr
    ⟨access_quiet hs e v, fun k => ?_⟩⟩
  · obtain rfl : k = 0 := by simpa using (List.getElem?_eq_some_iff.mp hk).1
    refine ⟨quieted s, .loaded ?_, access_armed_zero e v hs.1⟩
    simp only [activity, hs.2]
    rfl
  · rw [List.length_singleton, Nat.add_comm, access_armed_succ e v hs.1]

/-- R136: a delay cannot fail. -/
theorem delay_precise (t : Wait) : Precise (delay t) s := by
  intro hs
  refine ⟨[.dly t], played [.dly t] s.pb s, rfl, by simp [isLcdEvent], fun k e hk he => ?_,
    .inr ⟨delay_quiet hs t, fun k => ?_⟩⟩
  · cases List.mem_singleton.mp (List.mem_of_getElem? hk)
    cases he
  · rw [List.length_singleton, Nat.add_comm]
    rfl

/-- A load of registers. -/
theorem Precise.load {w : State → State} (hw : activity (w s) = activity s := by rfl)
    (hk : ∀ k, w (armed k s) = armed k (w s) := by intro k; rfl) : Precise (fun s => .ok (w s)) s := by
  intro _
  refine ⟨[], w s, .loaded hw, nofun, nofun, .inr ⟨rfl, fun k => ?_⟩⟩
  simp only [List.length_nil, Nat.zero_add, hk]

theorem Precise.skip : Precise (fun s => .ok s) s := .load

/-- A piece that goes like `g` from `s` with some registers loaded, and perhaps an operand read from the registers. -/
theorem Precise.of_loaded {t : State} (hg : Precise g t) (ht : activity t = activity s := by rfl)
    (h : f s = g t := by rfl) (hk : ∀ k, f (armed k s) = g (armed k t) := by intro k; rfl) : Precise f s := by
  intro hs
  have start : Plays [] s t := .loaded ht
  obtain ⟨es, u, p, lcd, fails, ends⟩ := hg (start.quiet hs)
  refine ⟨es, u, start.trans p, lcd, fun k e he ha => ?_, ?_⟩
  · rw [hk]
    exact (fails k e he ha).after start
  · simp only [h, hk]
    exact ends

/-- A piece that depends on a test of the registers. -/
theorem Precise.ite (p : State → Prop) [DecidablePred p] (hf : p s → Precise f s) (hg : ¬p s → Precise g s)
    (hp : ∀ k, p (armed k s) ↔ p s := by intro k; rfl) : Precise (fun s => if p s then f s else g s) s := by
  simp only [Precise, hp]
  split
  · next h => exact hf h
  · next h => exact hg h

/-- R245: a wait that never ends. -/
theorem Precise.hang : Precise (fun s => .error (.ended s)) s :=
  fun _ => ⟨[], s, .loaded rfl, nofun, nofun, .inl rfl⟩

end

/-! ### The primitives (R130 to R137) -/

section
variable (s : State)

theorem bitWrite_precise (i : Nat) (b : Bool) : Precise (bitWrite i b) s :=
  .of_loaded (access_precise (s := s) (e := .bw .pb i b) rfl rfl)

theorem readPb_precise : Precise readPb s := .of_loaded (access_precise (s := s) (e := .rd .pb s.pb) rfl rfl)

theorem writePb_precise (v : Byte) : Precise (writePb v) s := access_precise rfl rfl

/-- A write of a line whose index is a parameter. -/
theorem pinWrite_precise (pin : Config → Nat) (b : Bool) : Precise (fun s => bitWrite (pin s.cfg) b s) s :=
  .of_loaded (bitWrite_precise s (pin s.cfg) b)

theorem pulseEnable_precise : Precise pulseEnable s :=
  (pinWrite_precise s (·.pinEn) true).bind fun _ => (delay_precise .pulse).bind fun s =>
    (pinWrite_precise s (·.pinEn) false).bind fun _ => delay_precise .pulse

/-- R132: the merged nibble is of the latch at the start. -/
theorem sendNibble_precise (n : Nibble) : Precise (sendNibble n) s :=
  have merged : Precise (fun t => readPb t >>= fun t => writePb (putNibble s.pb n) t >>= pulseEnable) s :=
    (readPb_precise s).bind fun s => (writePb_precise s _).bind pulseEnable_precise
  .of_loaded merged

theorem sendByte_precise (v : Byte) : Precise (sendByte v) s :=
  (sendNibble_precise s _).bind fun s => sendNibble_precise s _

theorem sendBus_precise (rs : Bool) (v : Byte) : Precise (sendBus rs v) s :=
  (pinWrite_precise s (·.pinRs) rs).bind fun s => (sendByte_precise s v).bind fun _ => delay_precise .settle

theorem sendSlowCommand_precise (v : Byte) : Precise (sendSlowCommand v) s :=
  (sendBus_precise s false v).bind fun _ => delay_precise .clear

theorem rawNibble_precise (n : Nibble) : Precise (rawNibble n) s :=
  (sendNibble_precise s n).bind fun _ => delay_precise .settle

theorem legacyReset_precise (t : Wait) : Precise (legacyReset t) s :=
  (delay_precise t).bind fun s => .of_loaded (rawNibble_precise s s.cfg.nibReset8)

theorem initRaw_precise : Precise initRaw s :=
  (pinWrite_precise s (·.pinRs) false).bind fun s => (legacyReset_precise s .setup0).bind fun s =>
    (legacyReset_precise s .setup1).bind fun s => (legacyReset_precise s .setup2).bind fun s =>
      .of_loaded (rawNibble_precise s s.cfg.nibTo4bit)

/-- A command byte that is read from the registers, after a load. -/
theorem sendLoaded_precise (w : State → State) (byte : State → Byte) (hw : activity (w s) = activity s := by rfl)
    (hk : ∀ k, w (armed k s) = armed k (w s) := by intro k; rfl)
    (hb : ∀ k, byte (armed k (w s)) = byte (w s) := by intro k; rfl) :
    Precise (fun s => sendCommand (byte (w s)) (w s)) s :=
  .of_loaded (sendBus_precise (w s) false (byte (w s))) hw rfl fun k => by rw [hk, hb]; rfl

theorem sendSlow_precise (byte : Config → Byte) : Precise (fun s => sendSlowCommand (byte s.cfg) s) s :=
  .of_loaded (sendSlowCommand_precise s (byte s.cfg))

theorem initFlags_precise : Precise initFlags s :=
  (sendLoaded_precise s loadFs funcSetByte).bind fun s => (sendLoaded_precise s loadDc dispCtrlByte).bind fun s =>
    (sendLoaded_precise s loadEm entryModeByte).bind fun s => (sendSlow_precise s (·.cmdClear)).bind fun _ =>
      .load (w := fun s => markInit (cursorHome s))

/-! ### The bodies -/

theorem initBody_precise : Precise initBody s := (initRaw_precise s).bind initFlags_precise

theorem clearBody_precise : Precise clearBody s :=
  (sendSlow_precise s (·.cmdClear)).bind fun _ => .load (w := cursorHome)

theorem homeBody_precise : Precise homeBody s :=
  (sendSlow_precise s (·.cmdHome)).bind fun _ => .load (w := cursorHome)

theorem setDdram_precise (v : Nat) : Precise (setDdram v) s :=
  (sendLoaded_precise s id fun s => setDdramByte s.cfg (reduceDdram v)).bind fun _ =>
    .load (w := fun s => { s with addr := reduceDdram v })

theorem newline_precise : Precise newline s :=
  .of_loaded (setDdram_precise { s with row := nextRow s.row } (rowOffset (nextRow s.row).toNat))

theorem sendChar_precise (d : Byte) : Precise (sendChar d) s :=
  (sendBus_precise s true d).bind fun _ => .load (w := fun s => { s with addr := nextAddr s.addr })

theorem writeText_precise (text : List Byte) : Precise (writeText text) s := by
  induction text generalizing s with
  | nil => exact .skip
  | cons b rest ih =>
    exact .ite (fun s => b = s.cfg.newline) (fun _ => (newline_precise s).bind ih) fun _ => (sendChar_precise s b).bind ih

theorem sendCursor_precise : Precise sendCursor s :=
  sendLoaded_precise s id fun s => setDdramByte s.cfg s.addr

theorem writeBody_precise (text : List Byte) : Precise (writeBody text) s :=
  (sendCursor_precise s).bind fun s => writeText_precise s text

theorem setcurBody_precise (col row : Int) : Precise (setcurBody col row) s :=
  (setDdram_precise s _).bind fun _ => .load (w := fun s => { s with row := BitVec.ofNat 8 (clampedRow row) })

theorem sendRows_precise (rows : List Byte) : Precise (sendRows rows) s := by
  induction rows generalizing s with
  | nil => exact .skip
  | cons d rest ih => exact (sendBus_precise s true d).bind ih

theorem storegBody_precise (loc : Byte) (g : Glyph) : Precise (storegBody loc g) s :=
  (sendLoaded_precise s id fun s => setCgramByte s.cfg loc).bind fun s => sendRows_precise s _

theorem writegBody_precise (loc : Byte) : Precise (writegBody loc) s :=
  (sendCursor_precise s).bind fun s => sendChar_precise s loc

theorem dcBody_precise (mask : Byte) (on : Bool) : Precise (dcBody mask on) s :=
  sendLoaded_precise s (flagDc mask on) dispCtrlByte

theorem emBody_precise (mask : Byte) (on : Bool) : Precise (emBody mask on) s :=
  sendLoaded_precise s (flagEm mask on) entryModeByte

theorem backlightBody_precise (on : Bool) : Precise (backlightBody on) s := pinWrite_precise s (·.pinBl) on

theorem displayBody_precise (on : Bool) : Precise (fun s => dcBody s.cfg.dcD on s) s :=
  .of_loaded (dcBody_precise s s.cfg.dcD on)

theorem displayOnBody_precise : Precise displayOnBody s :=
  .ite (·.displayOn = true) (fun _ => .skip) fun _ =>
    (displayBody_precise s true).bind fun _ => .load (w := fun s => { s with displayOn := true })

theorem backlightOnBody_precise : Precise backlightOnBody s :=
  .ite (·.backlightOn = true) (fun _ => .skip) fun _ =>
    (backlightBody_precise s true).bind fun _ => .load (w := fun s => { s with backlightOn := true })

theorem backlightOffBody_precise : Precise backlightOffBody s :=
  .ite (·.backlightOn = true)
    (fun _ => (backlightBody_precise s false).bind fun _ => .load (w := fun s => { s with backlightOn := false }))
    fun _ => .skip

theorem displayOffBody_precise : Precise displayOffBody s :=
  .ite (·.displayOn = true)
    (fun _ => (displayBody_precise s false).bind fun s =>
      .of_loaded (backlightOffBody_precise { s with displayOn := false }))
    fun _ => .skip

theorem sdispBody_precise (st : Byte) : Precise (sdispBody st) s :=
  .ite (fun _ => st = 1) (fun _ => displayOnBody_precise s) fun _ => displayOffBody_precise s

theorem sblBody_precise (st : Byte) : Precise (sblBody st) s :=
  .ite (fun _ => st = 1) (fun _ => backlightOnBody_precise s) fun _ => backlightOffBody_precise s

theorem powerUp_precise : Precise powerUp s :=
  .ite (fun s => (s.displayOn && s.backlightOn) = true) (fun _ => .skip) fun _ =>
    (displayOnBody_precise s).bind backlightOnBody_precise

theorem cancelTimer_precise : Precise cancelTimer s :=
  .ite (·.expBusy = true) (fun _ => .hang) fun _ => .load (w := fun s => { s with timeoutActive := false })

theorem cancelPending_precise : Precise cancelPending s :=
  .ite (·.timeoutActive = true) (fun _ => cancelTimer_precise s) fun _ => .skip

theorem swriteBody_precise (text : List Byte) : Precise (swriteBody text) s :=
  (powerUp_precise s).bind fun s => (cancelPending_precise s).bind fun s => writeBody_precise s text

theorem swritetBody_precise (text : List Byte) (ms : Word32) : Precise (swritetBody text ms) s :=
  (swriteBody_precise s text).bind fun _ => .load (w := armTimer ms)

end

/-! ### Whole operations -/

/-- What a fault at the register access after the events `es` of an operation leaves (R271). -/
def FaultedAfter (op : OpName) (es : List Event) (s u : State) : Prop :=
  u.trace = s.trace ++ (es ++ [.resp s.issuer (.fault .ioFault)]) ∧ u.pb = latchAfter s.pb es ∧ u.seq = .idle ∧
    u.halted = false ∧ u.fault = s.fault.or (some .ioFault) ∧ u.raises = s.raises ++ [.ioFault op es.length]

/-- `s` with the sequencer taken by an operation of its issuer. -/
def begun (op : OpName) (s : State) : State := { s with seq := .busy (agentOf s.issuer) op 0 }

section
variable {op : OpName} {es : List Event} {s t : State}

/-- R261: the activity stands at the position that its events give it. -/
theorem Plays.seq_begun (h : Plays es (begun op s) t) : t.seq = .busy (agentOf s.issuer) op es.length := by
  rw [h.seq, begun, iterate_advance_busy, Nat.zero_add]

theorem Plays.ioFault_begun (h : Plays es (begun op s) t) : ioFaultOf t = .ioFault op es.length := by
  rw [ioFaultOf, positionOf, h.seq_begun]

theorem Plays.owner_begun (h : Plays es (begun op s) t) : ownerOf t = .host s.issuer := by
  have issuer : t.issuer = s.issuer := h.issuer
  rw [ownerOf, h.seq_begun, issuer]
  cases s.issuer <;> rfl

/-- R271: the fault of an operation that stops after the events `es`. -/
theorem FailsAfter.faulted {r : Except Stop State} (h : FailsAfter es (begun op s) r) (live : s.halted = false)
    (finish : State → Except Stop State) : ∃ u, conclude (r >>= finish) = .next u ∧ FaultedAfter op es s u := by
  obtain ⟨t, p, rfl⟩ := h
  refine ⟨_, rfl, ?_⟩
  rw [p.owner_begun, p.ioFault_begun, raiseFault_host_io]
  refine ⟨?_, p.pb, rfl, p.halted.trans live, ?_, ?_⟩
  · rw [← List.append_assoc]
    exact congrArg (· ++ _) p.trace
  · exact congrArg (Option.or · _) p.fault
  · exact congrArg (· ++ _) p.raises

end

theorem lcdOp_begun {s : State} {op : OpName} {body : State → Except Stop State} {result : State → Byte}
    (live : s.halted = false) (idle : s.seq = .idle) :
    lcdOp op body result s = conclude (body (begun op s) >>= fun t => .ok (finishOp (result t) t)) := by
  rw [lcdOp, accept_live live, bind_ok, startOp, startLcd_idle idle]
  rfl

theorem switchOp_begun {s : State} {op : OpName} {body : State → Except Stop State} (live : s.halted = false)
    (idle : s.seq = .idle) :
    switchOp op true true body s = conclude (body (begun op s) >>= fun t => .ok (finishOp 0 t)) := by
  rw [switchOp, accept_live live, bind_ok, demand, if_pos rfl, bind_ok, if_pos rfl, startOp, startLcd_idle idle]
  rfl

/-! The quiet run of an operation from `s` ends in `t` with the events `es` and a response; event number `k` of them is a
register access. -/
section
variable {s t : State} {es : List Event} {r : Response} {k : Nat} {e : Event} {op : OpName}
  {body : State → Except Stop State} {result : State → Byte}
  (h : Ready s) (htr : t.trace = s.trace ++ (es ++ [.resp s.issuer r])) (hk : es[k]? = some e) (he : isAccess e = true)

include htr hk he in
/-- An operation that is not seen on the LCD side has no register access. -/
theorem seen_of_access (hlcd : lcdSide t = lcdSide s) : False := by
  have same : t.trace.filter isLcdEvent = s.trace.filter isLcdEvent := congrArg State.trace hlcd
  rw [htr, List.filter_append, List.append_right_eq_self] at same
  exact List.filter_eq_nil_iff.mp same e (List.mem_append_left _ (List.mem_of_getElem? hk)) (isLcdEvent_of_isAccess he)

include h htr hk he

/-- An operation past its start, in the quiet schedule and with that access failed. -/
theorem begun_faults (hb : Precise body (begun op s))
    (ht : conclude (body (begun op s) >>= fun t => .ok (finishOp (result t) t)) = .next t) :
    ∃ u, conclude (body (begun op (armed k s)) >>= fun t => .ok (finishOp (result t) t)) = .next u ∧
      FaultedAfter op (es.take k) s u := by
  obtain ⟨es', t', p, lcd, fails, stop | ⟨ok, -⟩⟩ := hb h.2.2
  · rw [stop] at ht
    cases ht
    obtain rfl : es' = _ := List.append_cancel_left (p.trace.symm.trans htr)
    exact absurd (lcd _ (List.mem_append_right _ (List.mem_singleton.mpr rfl))) Bool.false_ne_true
  · rw [ok, bind_ok] at ht
    cases ht
    have played : (begun op s).trace ++ (es' ++ [.resp t'.issuer (.ok (result t'))]) =
        s.trace ++ (es ++ [.resp s.issuer r]) := by
      rw [← List.append_assoc, ← p.trace, ← htr]
      rfl
    obtain ⟨rfl, -⟩ := List.append_inj' (List.append_cancel_left played) rfl
    exact (fails k e hk he).faulted h.1 _

theorem lcdOp_faults (hb : Precise body (begun op s)) (ht : lcdOp op body result s = .next t) :
    ∃ u, lcdOp op body result (armed k s) = .next u ∧ FaultedAfter op (es.take k) s u := by
  rw [lcdOp_begun h.1 h.2.1] at ht
  rw [lcdOp_begun (s := armed k s) h.1 h.2.1]
  exact begun_faults h htr hk he hb ht

/-- SDISP and SBL access the port only where they have a hardware step to do. -/
theorem switchOp_faults {good touching : Bool} (hb : Precise body (begun op s))
    (ht : switchOp op good touching body s = .next t) :
    touching = true ∧ ∃ u, switchOp op good touching body (armed k s) = .next u ∧ FaultedAfter op (es.take k) s u := by
  cases good with
  | false =>
    rw [switchOp, accept_live h.1] at ht
    cases ht
    exact (seen_of_access htr hk he (lcdSide_respond _ _ _)).elim
  | true =>
    cases touching with
    | false =>
      rw [switchOp_noop h.1 rfl rfl] at ht
      cases ht
      exact (seen_of_access htr hk he (lcdSide_respond _ _ _)).elim
    | true =>
      rw [switchOp_begun h.1 h.2.1] at ht
      rw [switchOp_begun (s := armed k s) h.1 h.2.1]
      exact ⟨rfl, begun_faults h htr hk he (result := fun _ => 0) hb ht⟩

/-- The poller's operations have no register access. -/
theorem pollerOp_accessless {f : State → State} (hf : lcdSide (f s) = lcdSide s)
    (ht : Host.Outcome.next (unlessHalted s.issuer f s) = (.next t : Host.Outcome State Fault Refusal)) : False := by
  rw [unlessHalted, h.1] at ht
  cases ht
  exact seen_of_access htr hk he hf

/-- Every operation with a register access is one that touches port B, and stops where that access fails. -/
theorem exec_faults {i : Instr} (ht : exec i s = .next t) :
    ∃ op, touches i s = some op ∧ ∃ u, exec i (armed k s) = .next u ∧ FaultedAfter op (es.take k) s u := by
  cases i with
  | init => exact ⟨_, rfl, lcdOp_faults h htr hk he (initBody_precise _) ht⟩
  | write text => exact ⟨_, rfl, lcdOp_faults h htr hk he (writeBody_precise _ text) ht⟩
  | setcur col row => exact ⟨_, rfl, lcdOp_faults h htr hk he (setcurBody_precise _ col row) ht⟩
  | clear => exact ⟨_, rfl, lcdOp_faults h htr hk he (clearBody_precise _) ht⟩
  | home => exact ⟨_, rfl, lcdOp_faults h htr hk he (homeBody_precise _) ht⟩
  | dispon => exact ⟨_, rfl, lcdOp_faults h htr hk he (displayBody_precise _ true) ht⟩
  | dispoff => exact ⟨_, rfl, lcdOp_faults h htr hk he (displayBody_precise _ false) ht⟩
  | curon => exact ⟨_, rfl, lcdOp_faults h htr hk he (dcBody_precise _ s.cfg.dcC true) ht⟩
  | curoff => exact ⟨_, rfl, lcdOp_faults h htr hk he (dcBody_precise _ s.cfg.dcC false) ht⟩
  | blinkon => exact ⟨_, rfl, lcdOp_faults h htr hk he (dcBody_precise _ s.cfg.dcB true) ht⟩
  | blinkoff => exact ⟨_, rfl, lcdOp_faults h htr hk he (dcBody_precise _ s.cfg.dcB false) ht⟩
  | blon => exact ⟨_, rfl, lcdOp_faults h htr hk he (backlightBody_precise _ true) ht⟩
  | bloff => exact ⟨_, rfl, lcdOp_faults h htr hk he (backlightBody_precise _ false) ht⟩
  | ascron => exact ⟨_, rfl, lcdOp_faults h htr hk he (emBody_precise _ s.cfg.emS true) ht⟩
  | ascroff => exact ⟨_, rfl, lcdOp_faults h htr hk he (emBody_precise _ s.cfg.emS false) ht⟩
  | ltr => exact ⟨_, rfl, lcdOp_faults h htr hk he (emBody_precise _ s.cfg.emId true) ht⟩
  | rtl => exact ⟨_, rfl, lcdOp_faults h htr hk he (emBody_precise _ s.cfg.emId false) ht⟩
  | storeg loc g => exact ⟨_, rfl, lcdOp_faults h htr hk he (storegBody_precise _ loc g) ht⟩
  | writeg loc => exact ⟨_, rfl, lcdOp_faults h htr hk he (writegBody_precise _ loc) ht⟩
  | regs index id => exact (pollerOp_accessless h htr hk he (registerOp_lcdSide _ (singleKey index) id s) ht).elim
  | regc id indices => exact (pollerOp_accessless h htr hk he (registerOp_lcdSide _ (comboKey indices) id s) ht).elim
  | setint ms => exact (pollerOp_accessless h htr hk he (setintOp_lcdSide _ ms s) ht).elim
  | pollstart => exact (pollerOp_accessless h htr hk he (pollstartOp_lcdSide _ s) ht).elim
  | pollstop => exact (pollerOp_accessless h htr hk he (pollstopOp_lcdSide _ s) ht).elim
  | swrite text => exact ⟨_, rfl, lcdOp_faults h htr hk he (swriteBody_precise _ text) ht⟩
  | swritet text ms => exact ⟨_, rfl, lcdOp_faults h htr hk he (swritetBody_precise _ text ms) ht⟩
  | sdisp st =>
    obtain ⟨touching, run⟩ := switchOp_faults h htr hk he (sdispBody_precise _ st) ht
    exact ⟨_, if_pos touching, run⟩
  | sbl st =>
    obtain ⟨touching, run⟩ := switchOp_faults h htr hk he (sblBody_precise _ st) ht
    exact ⟨_, if_pos touching, run⟩

end

/-- Settles O45: the run stops at the failed access, whose position is the number of events before it. -/
theorem faultsArePrecise : Obligations.FaultsArePrecise := by
  intro i s t es r k e h ht htr hk he
  obtain ⟨op, hop, u, hu, trace, pb, seq, live, fault, raised⟩ := exec_faults h htr hk he ht
  have position : (es.take k).length = k :=
    List.length_take_of_le (List.getElem?_eq_some_iff.mp hk).1.le
  rw [position] at raised
  exact ⟨u, op, hop, hu, trace, pb, seq, live, fault, raised⟩

end Sys2Proof.Machine
end

section
/-!
The frames of the operations that write little but the port (R137, R187, R188, R200): what none of an activity's events,
its response and its faults write, nobody writes where nothing intervenes but the operation's own loads.
-/

namespace Sys2Proof.Machine

/-- The state without what the events, the response and the faults of any LCD-touching host operation write. -/
def offPort (s : State) : State :=
  { s with pb := 0, seq := .idle, fault := none, trace := [], raises := [], weave := [] }

/-- A property of what they do not write. -/
def OffPort (F : State → Prop) : Prop := ∀ s, F (offPort s) ↔ F s

/-- Nothing intervenes, and the activity in flight is a host operation. -/
def HostAlone (s : State) : Prop := weaveAll (fun _ => false) s.weave = true ∧ ownerOf s = .host s.issuer

theorem offPort_event (e : Event) (s : State) : offPort (emitOwn e (popSlot s)) = offPort s := by
  simp only [offPort, emitOwn, emit, popSlot]

theorem offPort_raiseFault_host (c : Ctx) (r : Raised) (s : State) :
    offPort (raiseFault (.host c) r s) = offPort s := by
  cases r <;> simp only [offPort, raiseFault, releaseSeq, leaveActivity, recordFault, respond, emit]

theorem alone_iff_weaveAll (s : State) : Alone s ↔ weaveAll (fun _ => false) s.weave = true := by
  simp only [weaveAll, List.all_eq_true, Bool.false_eq_true, imp_false, Alone, List.eq_nil_iff_forall_not_mem]

theorem ownerOf_emitOwn (e : Event) (s : State) : ownerOf (emitOwn e s) = ownerOf s := by
  unfold ownerOf
  rw [emitOwn_seq]
  cases s.seq with
  | idle => rfl
  | busy a op n => cases a <;> rfl

theorem hostAlone_begun {s : State} (h : Alone s) (op : OpName) : HostAlone (begun op s) := by
  refine ⟨(alone_iff_weaveAll s).mp h, ?_⟩
  cases hi : s.issuer <;> simp [ownerOf, begun, hi, agentOf]

section
variable {F : State → Prop} (hF : OffPort F)
include hF

theorem OffPort.of_eq {s t : State} (hs : F s) (h : offPort t = offPort s) : F t :=
  (hF t).mp (h ▸ (hF s).mpr hs)

theorem OffPort.woven : Woven (fun _ => false) (fun s => HostAlone s ∧ F s) (StopIn F) where
  tested _ h := h.1.1
  event e s h := ⟨⟨weaveAll_tail h.1.1, (ownerOf_emitOwn e _).trans h.1.2⟩, hF.of_eq h.2 (offPort_event e s)⟩
  latch _ _ h := ⟨h.1, hF.of_eq h.2 rfl⟩
  step _ _ ha := nomatch ha
  failed s h _ := by
    rw [h.1.2]
    exact hF.of_eq h.2 (offPort_raiseFault_host _ _ (popSlot s))
  closed s h _ := by
    rw [h.1.2]
    exact hF.of_eq h.2 (offPort_raiseFault_host _ _ s)

/-- Whatever becomes of an operation where nothing intervenes, a property of what only its own loads write holds in the
end, if its body keeps it. -/
theorem OffPort.lcdOp {op : OpName} {body : State → Except Stop State} {result : State → Byte} {s t : State}
    (alone : Alone s) (hs : F s) (h : lcdOp op body result s = .next t)
    (hb : HostAlone (begun op s) ∧ F (begun op s) →
      Ends (fun u => HostAlone u ∧ F u) (StopIn F) (body (begun op s))) : F t := by
  rcases lcdOp_next h fun _ _ => hb ⟨hostAlone_begun alone op, hF.of_eq hs rfl⟩ with
    ⟨-, rfl⟩ | ⟨-, a, op', n, -, rfl⟩ | ⟨-, -, hq | ⟨u, hu, rfl⟩⟩
  · exact hF.of_eq hs rfl
  · exact hF.of_eq hs (offPort_raiseFault_host _ _ s)
  · exact hq
  · exact hF.of_eq hu.2 rfl

end

/-! ### The statements -/

/-- Nothing but the port, and what a run of any operation records, is written. -/
def PortOnly (s t : State) : Prop := offPort t = offPort s

theorem portOnly_offPort (s : State) : OffPort (PortOnly s) := fun _ => .rfl

theorem PortOnly.eq {s t : State} (h : PortOnly s t) :
    t = { s with
      pb := t.pb
      seq := t.seq
      fault := t.fault
      trace := t.trace
      raises := t.raises
      weave := t.weave } :=
  congrArg (fun u : State => { u with
    pb := t.pb
    seq := t.seq
    fault := t.fault
    trace := t.trace
    raises := t.raises
    weave := t.weave }) h

/-- The state without what INIT loads. -/
def offInit (s : State) : State := { s with fs := 0, dc := 0, em := 0, addr := 0, row := 0, initDone := false }

/-- Nothing but the port and the registers INIT loads is written. -/
def PortAndInit (s t : State) : Prop := offInit (offPort t) = offInit (offPort s)

theorem portAndInit_offPort (s : State) : OffPort (PortAndInit s) := fun _ => .rfl

theorem PortAndInit.eq {s t : State} (h : PortAndInit s t) :
    t = { s with
      fs := t.fs
      dc := t.dc
      em := t.em
      addr := t.addr
      row := t.row
      initDone := t.initDone
      pb := t.pb
      seq := t.seq
      fault := t.fault
      trace := t.trace
      raises := t.raises
      weave := t.weave } :=
  congrArg (fun u : State => { u with
    fs := t.fs
    dc := t.dc
    em := t.em
    addr := t.addr
    row := t.row
    initDone := t.initDone
    pb := t.pb
    seq := t.seq
    fault := t.fault
    trace := t.trace
    raises := t.raises
    weave := t.weave }) h

/-- Settles O58: the bodies of BLON, BLOFF and STOREG load no register, and that of INIT those it loads. -/
theorem frameOfPortOperations : Obligations.FrameOfPortOperations := by
  refine ⟨fun i s t hi alone h => ?_, fun s t alone h => ?_⟩
  · have hF := portOnly_offPort s
    apply PortOnly.eq
    rcases hi with rfl | rfl | ⟨loc, g, rfl⟩
    · exact hF.lcdOp alone rfl h (backlightBody_ends hF.woven true)
    · exact hF.lcdOp alone rfl h (backlightBody_ends hF.woven false)
    · exact hF.lcdOp alone rfl h (storegBody_ends hF.woven loc g)
  · have hF := portAndInit_offPort s
    have loads : KeepsInit fun t => HostAlone t ∧ PortAndInit s t := fun _ h => ⟨h, h, h, h⟩
    exact (hF.lcdOp alone rfl h (initBody_ends hF.woven loads (fun _ _ _ h => h) fun _ _ _ h => h)).eq

end Sys2Proof.Machine
end

section
/-!
Text and cursor operations (R160 to R166) in a quiet schedule: the exact next states of WRITE, SETCUR, CLEAR and HOME, and
the laws of the family on the observer of the pins.
-/

namespace Sys2Proof.Machine

open Sys2Proof.Claims

/-! ### WRITE and SETCUR -/

/-- Settles O14: `exec_write_ready`, its cursor written out. -/
theorem writeCompletes : Obligations.WriteCompletes := fun _ text h => exec_write_ready h text

/-- R160. -/
theorem setDdram_quiet {s : State} (h : Quiet s) (v : Nat) :
    setDdram v s = .ok (played (busEvents s.cfg false (s.cfg.cmdSetDdram ||| reduceDdram v) s.pb)
      (busPb s.cfg false (s.cfg.cmdSetDdram ||| reduceDdram v) s.pb) (atCursor (reduceDdram v, s.row) s)) := by
  rw [setDdram, sendCommand_quiet h]
  rfl

/-- R163: the cursor SETCUR records. -/
def setcurCursor (col row : Int) : Byte × Byte :=
  (reduceDdram (cursorTarget col row), BitVec.ofNat 8 (clampedRow row))

/-- R163: a SETCUR that may start sends the set-address command to its cursor, records it and answers the address. -/
theorem exec_setcur_ready {s : State} (h : Ready s) (col row : Int) :
    exec (.setcur col row) s = .next (answered s [(false, s.cfg.cmdSetDdram ||| (setcurCursor col row).1)]
      (setcurCursor col row).1 (atCursor (setcurCursor col row) s)) := by
  have body {t : State} (ht : Quiet t) : setcurBody col row t =
      .ok (played (busEvents t.cfg false (t.cfg.cmdSetDdram ||| (setcurCursor col row).1) t.pb)
        (busPb t.cfg false (t.cfg.cmdSetDdram ||| (setcurCursor col row).1) t.pb)
        (atCursor (setcurCursor col row) t)) := by
    rw [setcurBody, setDdram_quiet ht]
    rfl
  refine lcdOp_answers h (v := (setcurCursor col row).1) (body (by exact h.2.2)) rfl ?_
  simp only [answered, atCursor, respond, emit, played, busesEvents, busesPb, List.append_nil, List.append_assoc,
    ← h.2.1]

/-! ### The cursor in numbers -/

/-- R163: the column operand, clamped. -/
theorem clampedCol_eq (col : Int) : clampedCol col = if col < 0 then 0 else if 39 < col then 39 else col.toNat := by
  unfold clampedCol clamp maxCol
  split_ifs <;> rfl

/-- R163: the row operand, clamped. -/
theorem clampedRow_eq (row : Int) : clampedRow row = if row < 1 then 0 else 1 := by
  have top : ((maxLines : Nat) : Int) - 1 = 1 := rfl
  rw [clampedRow, clamp, top]
  split_ifs <;> omega

/-- R26: the two rows start 64 apart. -/
theorem rowOffset_eq {r : Nat} (h : r < maxLines) : rowOffset r = 64 * r := by
  obtain rfl | rfl : r = 0 ∨ r = 1 := by
    unfold maxLines at h
    omega
  · rfl
  · rfl

/-- Settles O15: the clamps and the row offset in numbers. -/
theorem setcurCompletes : Obligations.SetcurCompletes := by
  intro s col row h
  have cursor : setcurCursor col row =
      (BitVec.ofNat 8 ((64 * clampedRow row + clampedCol col) % 80), BitVec.ofNat 8 (clampedRow row)) := by
    rw [setcurCursor, cursorTarget, rowOffset_eq (Nat.lt_succ_of_le (clampedRow_le row))]
    rfl
  rw [clampedCol_eq, clampedRow_eq] at cursor
  rw [exec_setcur_ready h, cursor]
  rfl

/-- R163, R166 c: a row or column that is clamped already is clamped to itself. -/
theorem clamp_clamp {lo hi : Int} (h : lo ≤ hi) (v : Int) : clamp (clamp v lo hi) lo hi = clamp v lo hi := by
  unfold clamp
  split_ifs <;> omega

/-- R166 c: SETCUR depends on its clamped operands alone. -/
theorem exec_setcur_clamp (s : State) (col row : Int) :
    exec (.setcur col row) s = exec (.setcur (clamp col 0 39) (clamp row 0 1)) s := by
  have hcol : clampedCol (clamp col 0 39) = clampedCol col := congrArg Int.toNat (clamp_clamp (by decide) col)
  have hrow : clampedRow (clamp row 0 1) = clampedRow row := congrArg Int.toNat (clamp_clamp (by decide) row)
  have body : setcurBody col row = setcurBody (clamp col 0 39) (clamp row 0 1) := by
    funext t
    simp only [setcurBody, cursorTarget, hcol, hrow]
  exact congrArg (fun b => lcdOp .setcur b addrResult s) body

/-! ### CLEAR and HOME -/

/-- R164, R165: the one pseudocode of CLEAR and HOME. -/
def homing (cmd : Config → Byte) (s : State) : Except Stop State := do
  let s ← sendSlowCommand (cmd s.cfg) s
  return cursorHome s

/-- R164, R165: the state it leaves: the command is sent, with the longer delay after it, and 0 is answered. -/
def homed (cmd : Byte) (s : State) : State :=
  { s with
    addr := 0
    row := 0
    pb := busPb s.cfg false cmd s.pb
    trace := s.trace ++ (busEvents s.cfg false cmd s.pb ++ [.dly .clear, .resp s.issuer (.ok 0)]) }

theorem homing_answers {s : State} (h : Ready s) (op : OpName) (cmd : Config → Byte) :
    lcdOp op (homing cmd) noResult s = .next (homed (cmd s.cfg) s) := by
  have body {t : State} (ht : Quiet t) : homing cmd t =
      .ok (played (busEvents t.cfg false (cmd t.cfg) t.pb ++ [.dly .clear]) (busPb t.cfg false (cmd t.cfg) t.pb)
        (cursorHome t)) := by
    rw [homing, sendSlowCommand_quiet ht]
    rfl
  refine lcdOp_answers h (v := 0) (body (by exact h.2.2)) rfl ?_
  simp only [homed, respond, emit, played, cursorHome, List.append_assoc, List.singleton_append, ← h.2.1]

/-- Settles O16: both are `homing`, with their own command. -/
theorem clearAndHomeComplete : Obligations.ClearAndHomeComplete := by
  rintro s i cmd h (⟨rfl, rfl⟩ | ⟨rfl, rfl⟩)
  · exact homing_answers h .clear (·.cmdClear)
  · exact homing_answers h .home (·.cmdHome)

theorem exec_clear_or_home_ready {s : State} {i : Instr} (h : Ready s) (hi : i = .clear ∨ i = .home) :
    ∃ cmd, exec i s = .next (homed cmd s) := by
  rcases hi with rfl | rfl
  · exact ⟨_, homing_answers h .clear (·.cmdClear)⟩
  · exact ⟨_, homing_answers h .home (·.cmdHome)⟩

/-! ### A text without a newline, and one newline -/

section
variable {c : Config} {text : List Byte}

/-- R161: without a newline every byte is data. -/
theorem textBytes_plain (h : c.newline ∉ text) (addr row : Byte) :
    textBytes c text addr row = text.map fun b => (true, b) := by
  induction text generalizing addr with
  | nil => rfl
  | cons b rest ih =>
    obtain ⟨hb, hrest⟩ := not_or.mp (mt List.mem_cons.mpr h)
    rw [textBytes, if_neg (Ne.symm hb), ih hrest, List.map_cons]

/-- R161: without a newline the cursor moves along its row, one address a byte. -/
theorem textCursor_plain (h : c.newline ∉ text) (addr row : Byte) :
    textCursor c text addr row = (nextAddr^[text.length] addr, row) := by
  induction text generalizing addr with
  | nil => rfl
  | cons b rest ih =>
    obtain ⟨hb, hrest⟩ := not_or.mp (mt List.mem_cons.mpr h)
    rw [textCursor, if_neg (Ne.symm hb), ih hrest, List.length_cons, Function.iterate_succ_apply]

end

/-- R161: the address after `n` characters. -/
theorem iterate_nextAddr_toNat (n : Nat) {a : Byte} (h : a.toNat < 80) :
    (nextAddr^[n] a).toNat = (a.toNat + n) % 80 := by
  induction n generalizing a with
  | zero => exact (Nat.mod_eq_of_lt h).symm
  | succ n ih =>
    have next := nextAddr_toNat a
    rw [Function.iterate_succ_apply, ih (by omega), next]
    omega

/-- R26, R160: the reduction leaves the start of a row as it is. -/
theorem reduceDdram_rowOffset (r : Nat) : reduceDdram (rowOffset r) = BitVec.ofNat 8 (rowOffset r) := by
  cases r <;> rfl

theorem rowOffset_lt (r : Nat) : rowOffset r < 80 := by
  cases r with
  | zero => decide
  | succ r => exact (by decide : 64 < 80)

theorem toNat_rowOffset (r : Nat) : (BitVec.ofNat 8 (rowOffset r)).toNat = rowOffset r := by
  rw [← reduceDdram_rowOffset, reduceDdram_toNat, Nat.mod_eq_of_lt (rowOffset_lt r)]

/-- R162: the cursor after a newline between two texts without one. -/
theorem textCursor_newline {c : Config} {before after : List Byte} (hb : c.newline ∉ before) (ha : c.newline ∉ after)
    (addr row : Byte) :
    textCursor c (before ++ c.newline :: after) addr row =
      (nextAddr^[after.length] (BitVec.ofNat 8 (rowOffset (nextRow row).toNat)), nextRow row) := by
  rw [textCursor_append, textCursor_plain hb, textCursor, if_pos rfl, textCursor_plain ha, reduceDdram_rowOffset]

/-- R162: a newline sends one command byte, to the start of the next row. -/
theorem textBytes_newline {c : Config} {before after : List Byte} (hb : c.newline ∉ before) (ha : c.newline ∉ after)
    (addr row : Byte) :
    textBytes c (before ++ c.newline :: after) addr row = before.map (fun b => (true, b)) ++
      (false, c.cmdSetDdram ||| BitVec.ofNat 8 (rowOffset (nextRow row).toNat)) :: after.map fun b => (true, b) := by
  rw [textBytes_append, textCursor_plain hb, textBytes_plain hb, textBytes, if_pos rfl, textBytes_plain ha,
    reduceDdram_rowOffset]

/-- R166 e: of a text's bus bytes, the newlines alone are commands. -/
theorem map_fst_textBytes (c : Config) (text : List Byte) (addr row : Byte) :
    (textBytes c text addr row).map Prod.fst = text.map fun b => decide (b ≠ c.newline) := by
  induction text generalizing addr row with
  | nil => rfl
  | cons b rest ih => by_cases hb : b = c.newline <;> simp [textBytes, hb, ih]

/-! ### The laws of the family -/

/-- R77: the delay after a slow command is no bus byte. -/
theorem busBytes_slowCommand {c : Config} (hc : c.PinsOk) (cmd pb : Byte) :
    busBytes c pb (busEvents c false cmd pb ++ [.dly .clear]) = [(false, cmd)] := by
  rw [busBytes, watchBytes_append, watchBytes_busEvents hc]
  rfl

/-- R166 e: SETCUR, CLEAR and HOME send one command byte each. -/
theorem busBytes_setcur_clear_home {s : State} {i : Instr} (h : Ready s) (hc : s.cfg.PinsOk)
    (hi : (∃ col row, i = .setcur col row) ∨ i = .clear ∨ i = .home) :
    ∃ t es v cmd, exec i s = .next t ∧ t.trace = s.trace ++ (es ++ [.resp s.issuer (.ok v)]) ∧
      busBytes s.cfg s.pb es = [(false, cmd)] := by
  rcases hi with ⟨col, row, rfl⟩ | hi
  · exact ⟨_, _, _, _, exec_setcur_ready h col row, rfl, watchBytes_busesEvents hc _ s.pb⟩
  · obtain ⟨cmd, run⟩ := exec_clear_or_home_ready h hi
    refine ⟨_, _, 0, cmd, run, ?_, busBytes_slowCommand hc cmd s.pb⟩
    rw [List.append_assoc]
    rfl

/-- Settles O17: WRITE's laws are read off its bus bytes and its cursor, which the observer and the answer give. -/
theorem textFamilyLaws : Obligations.TextFamilyLaws := by
  refine ⟨fun s text h hc _ haddr plain => ?_, fun s before after h hc _ hb ha => ?_, exec_setcur_clamp,
    fun s i h hi => ?_, fun s text h hc _ => ?_, fun s i h hc _ hi => busBytes_setcur_clear_home h hc hi⟩
  · have cursor := textCursor_plain plain s.addr s.row
    refine ⟨_, _, exec_write_ready h text, rfl, ?_, ?_⟩
    · exact (watchBytes_busesEvents hc _ s.pb).trans (congrArg (List.cons _) (textBytes_plain plain s.addr s.row))
    · exact (congrArg (·.1.toNat) cursor).trans (iterate_nextAddr_toNat text.length haddr)
  · have cursor := textCursor_newline hb ha s.addr s.row
    refine ⟨_, exec_write_ready h _, ?_, ?_, _, rfl, ?_⟩
    · exact (congrArg (·.2.toNat) cursor).trans (nextRow_toNat s.row)
    · simp only [answered, atCursor, cursor]
      have start := toNat_rowOffset (nextRow s.row).toNat
      rw [iterate_nextAddr_toNat after.length (start.trans_lt (rowOffset_lt _)), start]
    · simp only [answered, atCursor, cursor]
      exact (watchBytes_busesEvents hc _ s.pb).trans (congrArg (List.cons _) (textBytes_newline hb ha s.addr s.row))
  · obtain ⟨cmd, run⟩ := exec_clear_or_home_ready h hi
    exact ⟨_, run, rfl, rfl⟩
  · refine ⟨_, _, _, exec_write_ready h text, rfl, ?_⟩
    exact (congrArg (List.map Prod.fst) (watchBytes_busesEvents hc _ s.pb)).trans
      (congrArg (List.cons false) (map_fst_textBytes s.cfg text s.addr s.row))

end Sys2Proof.Machine
end

section
/-!
The frame of the operations that move the cursor (R161 to R165, R201): they load the cached cursor, and WRITEG only its
address; the rest is what any operation on the port writes.
-/

namespace Sys2Proof.Machine

/-- The state without the cached cursor. -/
def offCursor (s : State) : State := { s with addr := 0, row := 0 }

/-- Nothing but the port and the cached cursor is written. -/
def PortAndCursor (s t : State) : Prop := offCursor (offPort t) = offCursor (offPort s)

theorem portAndCursor_offPort (s : State) : OffPort (PortAndCursor s) := fun _ => .rfl

theorem PortAndCursor.eq {s t : State} (h : PortAndCursor s t) :
    t = { s with
      addr := t.addr
      row := t.row
      pb := t.pb
      seq := t.seq
      fault := t.fault
      trace := t.trace
      raises := t.raises
      weave := t.weave } :=
  congrArg (fun u : State => { u with
    addr := t.addr
    row := t.row
    pb := t.pb
    seq := t.seq
    fault := t.fault
    trace := t.trace
    raises := t.raises
    weave := t.weave }) h

/-- Nothing but the port and the cached address is written. -/
def PortAndAddr (s t : State) : Prop := PortAndCursor s t ∧ t.row = s.row

theorem portAndAddr_offPort (s : State) : OffPort (PortAndAddr s) := fun _ => .rfl

/-- R201: WRITEG writes of the cursor its address alone. -/
theorem portAndAddr_of_exec_writeg {loc : Byte} {s t : State} (alone : Alone s) (h : exec (.writeg loc) s = .next t) :
    PortAndAddr s t := by
  have hF := portAndAddr_offPort s
  exact hF.lcdOp alone ⟨rfl, rfl⟩ h (writegBody_ends hF.woven (fun _ _ _ h => h) loc)

/-- Settles O56: the bodies load no register but the two of the cursor, and that of WRITEG not the row. -/
theorem frameOfCursorOperations : Obligations.FrameOfCursorOperations := by
  intro i s t hi alone h
  have hF := portAndCursor_offPort s
  have addr : KeepsAddr fun t => HostAlone t ∧ PortAndCursor s t := fun _ _ _ h => h
  have row : KeepsRow fun t => HostAlone t ∧ PortAndCursor s t := fun _ _ _ h => h
  refine ⟨PortAndCursor.eq ?_, ?_⟩
  · rcases hi with ⟨text, rfl⟩ | ⟨col, row', rfl⟩ | rfl | rfl | ⟨loc, rfl⟩
    · exact hF.lcdOp alone rfl h (writeBody_ends hF.woven addr row text)
    · exact hF.lcdOp alone rfl h (setcurBody_ends hF.woven addr row col row')
    · exact hF.lcdOp alone rfl h (clearBody_ends hF.woven addr row)
    · exact hF.lcdOp alone rfl h (homeBody_ends hF.woven addr row)
    · exact (portAndAddr_of_exec_writeg alone h).1
  · rintro ⟨loc, rfl⟩
    exact (portAndAddr_of_exec_writeg alone h).2

end Sys2Proof.Machine
end

section
/-!
Display attributes (R180 to R192): a flag operation loads its bit of a cached byte and sends the command that carries the
byte whole, from which follow its exact next state in a quiet schedule and what it may write when an access fails; the
backlight operations write one line.
-/

namespace Sys2Proof.Machine

open Sys2Proof.Claims

/-! ### The common scheme of the flag operations (R180) -/

/-- `s` with its cached display-control and entry-mode bytes replaced. -/
def withFlags (dc em : Byte) (s : State) : State := { s with dc := dc, em := em }

/-- R180: after its start the operation loads the flag bytes, sends one command, and has no result. -/
def LoadsAndSends (i : Instr) (dc em cmd : Byte) (s : State) : Prop :=
  ∃ op body, exec i s = lcdOp op body noResult s ∧ body (begun op s) = sendCommand cmd (begun op (withFlags dc em s))

section
variable {i : Instr} {mask : Byte} {on : Bool} {dc em cmd : Byte} {s t : State}

/-- R181 to R186. -/
theorem loadsAndSends_of_dcToggle (h : dcToggle s.cfg i = some (mask, on)) :
    LoadsAndSends i (putFlag s.dc mask on) s.em (s.cfg.cmdDispCtrl ||| putFlag s.dc mask on) s := by
  cases i
  case dispon | dispoff | curon | curoff | blinkon | blinkoff =>
    cases h
    exact ⟨_, _, rfl, rfl⟩
  all_goals cases h

/-- R189 to R192. -/
theorem loadsAndSends_of_emToggle (h : emToggle s.cfg i = some (mask, on)) :
    LoadsAndSends i s.dc (putFlag s.em mask on) (s.cfg.cmdEntryMode ||| putFlag s.em mask on) s := by
  cases i
  case ascron | ascroff | ltr | rtl =>
    cases h
    exact ⟨_, _, rfl, rfl⟩
  all_goals cases h

/-- In a quiet schedule the command is on the bus and the loads stand. -/
theorem LoadsAndSends.exec_ready (k : LoadsAndSends i dc em cmd s) (h : Ready s) :
    exec i s = .next (answered s [(false, cmd)] 0 (withFlags dc em s)) := by
  obtain ⟨op, body, run, loads⟩ := k
  rw [run]
  refine lcdOp_answers h (v := 0) (loads.trans (sendCommand_quiet (by exact h.2.2) cmd)) rfl ?_
  simp only [answered, withFlags, begun, respond, emit, played, busesEvents, busesPb, List.append_nil,
    List.append_assoc, ← h.2.1]

/-- Whatever access fails, the port alone is written, from the state as it was or from the loaded one. -/
theorem LoadsAndSends.frame (k : LoadsAndSends i dc em cmd s) (alone : Alone s) (h : exec i s = .next t) :
    PortOnly s t ∨ PortOnly (withFlags dc em s) t := by
  obtain ⟨op, body, run, loads⟩ := k
  have hF : OffPort fun u => PortOnly s u ∨ PortOnly (withFlags dc em s) u := fun _ => .rfl
  refine hF.lcdOp alone (.inl rfl) (run.symm.trans h) fun _ => ?_
  rw [loads]
  exact sendBus_ends hF.woven ⟨hostAlone_begun (s := withFlags dc em s) alone op, .inr rfl⟩ _ _

theorem PortOnly.dc_eq (h : PortOnly s t) : t.dc = s.dc :=
  show (offPort t).dc = (offPort s).dc from congrArg State.dc h

theorem PortOnly.em_eq (h : PortOnly s t) : t.em = s.em :=
  show (offPort t).em = (offPort s).em from congrArg State.em h

theorem PortOnly.frame_dc (h : PortOnly (withFlags dc s.em s) t) :
    t = { s with
      dc := t.dc
      pb := t.pb
      seq := t.seq
      fault := t.fault
      trace := t.trace
      raises := t.raises
      weave := t.weave } := by
  obtain rfl : t.dc = dc := h.dc_eq
  exact h.eq

theorem PortOnly.frame_em (h : PortOnly (withFlags s.dc em s) t) :
    t = { s with
      em := t.em
      pb := t.pb
      seq := t.seq
      fault := t.fault
      trace := t.trace
      raises := t.raises
      weave := t.weave } := by
  obtain rfl : t.em = em := h.em_eq
  exact h.eq

end

/-! ### The statements -/

/-- Settles O19. -/
theorem displayControlTogglesComplete : Obligations.DisplayControlTogglesComplete :=
  fun _ _ _ _ h toggles => (loadsAndSends_of_dcToggle toggles).exec_ready h

/-- Settles O20. -/
theorem entryModeTogglesComplete : Obligations.EntryModeTogglesComplete :=
  fun _ _ _ _ h toggles => (loadsAndSends_of_emToggle toggles).exec_ready h

/-- Settles O57: the operation ended before its load or after it. -/
theorem frameOfToggles : Obligations.FrameOfToggles := by
  refine ⟨fun i s t mask on toggles alone h => ?_, fun i s t mask on toggles alone h => ?_⟩
  · rcases (loadsAndSends_of_dcToggle toggles).frame alone h with kept | loaded
    · exact ⟨PortOnly.frame_dc (dc := s.dc) kept, .inl kept.dc_eq⟩
    · exact ⟨loaded.frame_dc, .inr loaded.dc_eq⟩
  · rcases (loadsAndSends_of_emToggle toggles).frame alone h with kept | loaded
    · exact ⟨PortOnly.frame_em (em := s.em) kept, .inl kept.em_eq⟩
    · exact ⟨loaded.frame_em, .inr loaded.em_eq⟩

/-- Settles O21: both operations are one single-bit write, `backlightBody_quiet`. -/
theorem backlightTogglesComplete : Obligations.BacklightTogglesComplete := by
  intro s on h
  have run : exec (if on then .blon else .bloff) s =
      lcdOp (if on then .blon else .bloff) (backlightBody on) noResult s := by
    cases on <;> rfl
  rw [run]
  refine lcdOp_answers h (v := 0) (backlightBody_quiet (by exact h.2.2) on) rfl ?_
  simp only [respond, emit, played, List.append_assoc, List.singleton_append, ← h.2.1]

end Sys2Proof.Machine
end

section
/-!
Custom glyphs (R200 to R202): the exact next states of STOREG and WRITEG in a quiet schedule, the laws of the family on the
observer of the pins, and the registers neither operation writes under any schedule without a reset.
-/

namespace Sys2Proof.Machine

open Sys2Proof.Claims

/-! ### STOREG and WRITEG in a quiet schedule -/

/-- R200: the bus bytes of STOREG. -/
def storegBytes (c : Config) (loc : Byte) (g : Glyph) : List (Bool × Byte) :=
  (false, setCgramByte c loc) :: (glyphBytes g).map fun d => (true, d)

/-- R201: the bus bytes of WRITEG, from a cached address. -/
def writegBytes (c : Config) (addr loc : Byte) : List (Bool × Byte) := [(false, setDdramByte c addr), (true, loc)]

theorem storegBody_quiet {s : State} (h : Quiet s) (loc : Byte) (g : Glyph) :
    storegBody loc g s = .ok (played (busesEvents s.cfg (storegBytes s.cfg loc g) s.pb)
      (busesPb s.cfg (storegBytes s.cfg loc g) s.pb) s) := by
  rw [storegBody, sendCommand_quiet h, bind_ok, sendRows_quiet _ (quiet_played h _ _), played_played]
  rfl

theorem writegBody_quiet {s : State} (h : Quiet s) (loc : Byte) :
    writegBody loc s = .ok (played (busesEvents s.cfg (writegBytes s.cfg s.addr loc) s.pb)
      (busesPb s.cfg (writegBytes s.cfg s.addr loc) s.pb) (atCursor (nextAddr s.addr, s.row) s)) := by
  rw [writegBody, sendCursor, sendCommand_quiet h, bind_ok, sendChar_quiet (quiet_played h _ _)]
  exact congrArg Except.ok (played_atCursor _ _ _ _ (s.addr, s.row) _ s)

/-- R200: a STOREG that may start sends its bus bytes and writes no register. -/
theorem exec_storeg_ready {s : State} (h : Ready s) (loc : Byte) (g : Glyph) :
    exec (.storeg loc g) s = .next (answered s (storegBytes s.cfg loc g) 0 s) := by
  refine lcdOp_answers h (v := 0) (storegBody_quiet (by exact h.2.2) loc g) rfl ?_
  simp only [answered, respond, emit, played, List.append_assoc, ← h.2.1]

/-- R201: a WRITEG that may start sends its bus bytes, moves the cursor on by one address and answers that address. -/
theorem exec_writeg_ready {s : State} (h : Ready s) (loc : Byte) :
    exec (.writeg loc) s = .next (answered s (writegBytes s.cfg s.addr loc) (nextAddr s.addr)
      (atCursor (nextAddr s.addr, s.row) s)) := by
  refine lcdOp_answers h (v := nextAddr s.addr) (writegBody_quiet (by exact h.2.2) loc) rfl ?_
  simp only [answered, atCursor, respond, emit, played, List.append_assoc, ← h.2.1]

/-- Settles O22: `exec_storeg_ready`, its bus bytes written out. -/
theorem storegCompletes : Obligations.StoregCompletes := fun _ loc g h => exec_storeg_ready h loc g

/-- Settles O23: `exec_writeg_ready`, its bus bytes and its address written out. -/
theorem writegCompletes : Obligations.WritegCompletes := fun _ loc h => exec_writeg_ready h loc

/-! ### The location of STOREG -/

/-- R202 a: masking a masked location changes nothing. -/
theorem setCgramByte_masked (c : Config) (loc : Byte) : setCgramByte c (loc &&& 7) = setCgramByte c loc := by
  rw [setCgramByte, BitVec.and_assoc, BitVec.and_self, setCgramByte]

/-- R202 a: STOREG depends on the low three bits of its location alone, whatever the state. -/
theorem exec_storeg_masked (s : State) (loc : Byte) (g : Glyph) :
    exec (.storeg loc g) s = exec (.storeg (loc &&& 7) g) s := by
  have body : storegBody loc g = storegBody (loc &&& 7) g := by
    funext t
    rw [storegBody, storegBody, setCgramByte_masked]
  exact congrArg (fun b => lcdOp .storeg b noResult s) body

/-! ### What neither operation writes -/

/-- The entry mode, the display control, the function set and the row are as they were. -/
def FlagsAndRowKept (s t : State) : Prop := t.em = s.em ∧ t.dc = s.dc ∧ t.fs = s.fs ∧ t.row = s.row

theorem FlagsAndRowKept.refl (s : State) : FlagsAndRowKept s s := ⟨rfl, rfl, rfl, rfl⟩

theorem FlagsAndRowKept.raise {s t : State} (h : FlagsAndRowKept s t) (who : Raiser) (r : Raised) :
    FlagsAndRowKept s (raiseFault who r t) := by
  rw [raiseFault_frame]
  exact h

theorem FlagsAndRowKept.bystander {s t u : State} (h : FlagsAndRowKept s t) (b : Bystander t u) :
    FlagsAndRowKept s u := by
  obtain ⟨em, dc, fs, row⟩ := h
  exact ⟨b.em.trans em, b.dc.trans dc, b.fs.trans fs, b.row.trans row⟩

/-- No event of an activity and no step of another agent but a reset writes them. -/
theorem flagsAndRowKept_woven (s : State) :
    Woven (fun a => !isReset a) (fun t => noReset t.weave = true ∧ FlagsAndRowKept s t)
      (StopIn (FlagsAndRowKept s)) where
  tested _ h := h.1
  event _ _ h := ⟨weaveAll_tail h.1, h.2⟩
  latch _ _ h := h
  step a t ha h := by
    cases hr : act a t with
    | error e =>
      cases e with
      | breach f => trivial
      | ended u => exact absurd hr (act_not_ended (by simpa using ha))
    | ok u =>
      have b := act_ok_bystander hr
      have kept := h.2.bystander b
      simp only [Ends]
      split
      · exact kept
      · exact ⟨b.weave ▸ h.1, kept⟩
  failed t h _ := FlagsAndRowKept.raise (t := popSlot t) h.2 _ _
  closed _ h _ := h.2.raise _ _

/-- However an operation ends, it keeps them if its body does. -/
theorem lcdOp_flagsAndRowKept {op : OpName} {body : State → Except Stop State} {result : State → Byte} {s t : State}
    (hw : noReset s.weave = true) (h : lcdOp op body result s = .next t)
    (hb : ∀ u, noReset u.weave = true ∧ FlagsAndRowKept s u →
      Ends (fun u => noReset u.weave = true ∧ FlagsAndRowKept s u) (StopIn (FlagsAndRowKept s)) (body u)) :
    FlagsAndRowKept s t := by
  rcases lcdOp_next h fun _ _ => hb _ ⟨hw, .refl s⟩ with
    ⟨-, rfl⟩ | ⟨-, a, op', n, -, rfl⟩ | ⟨-, -, stopped | ⟨u, ended, rfl⟩⟩
  · exact .refl s
  · exact (FlagsAndRowKept.refl s).raise _ _
  · exact stopped
  · exact ended.2

/-- R202 d: STOREG loads no register, and WRITEG the address alone. -/
theorem flagsAndRowKept_of_exec_glyph {s t : State} {i : Instr}
    (hi : (∃ loc g, i = .storeg loc g) ∨ ∃ loc, i = .writeg loc) (hw : noReset s.weave = true)
    (h : exec i s = .next t) : FlagsAndRowKept s t := by
  have w := flagsAndRowKept_woven s
  rcases hi with ⟨loc, g, rfl⟩ | ⟨loc, rfl⟩
  · exact lcdOp_flagsAndRowKept hw h fun _ hu => storegBody_ends w loc g hu
  · exact lcdOp_flagsAndRowKept hw h fun _ hu => writegBody_ends w (fun _ _ _ k => k) loc hu

/-! ### The laws of the family -/

/-- Settles O24: the observer recovers the bus bytes of both operations, and the address is the answered one. -/
theorem glyphFamilyLaws : Obligations.GlyphFamilyLaws := by
  refine ⟨exec_storeg_masked, fun s loc g h hc _ => ?_, fun s loc h hc _ => ?_,
    fun s t i hi hw h => flagsAndRowKept_of_exec_glyph hi hw h⟩
  · exact ⟨_, _, _, exec_storeg_ready h loc g, rfl, watchBytes_busesEvents hc (storegBytes s.cfg loc g) s.pb⟩
  · exact ⟨_, _, _, exec_writeg_ready h loc, rfl, watchBytes_busesEvents hc (writegBytes s.cfg s.addr loc) s.pb,
      nextAddr_toNat s.addr⟩

end Sys2Proof.Machine
end

section
/-!
The poller's five operations (R211 to R215): what each does in a block that runs, the keys under which handlers are
registered (R221, R222), the end of a held operation, and what each operation leaves unchanged.
-/

namespace Sys2Proof.Machine

open Sys2Proof.Claims

/-- R266: outside a halted block the operation itself runs. -/
theorem unlessHalted_live {s : State} (live : s.halted = false) (c : Ctx) (f : State → State) :
    unlessHalted c f s = f s :=
  if_neg (by simp [live])

/-! ### Registration -/

theorem comboSum_eq_sum (indices : List Byte) : comboSum indices = (indices.map (fun i : Byte => 2 ^ i.toNat)).sum := by
  induction indices with
  | nil => rfl
  | cons i rest ih => rw [comboSum, ih, List.map_cons, List.sum_cons]

theorem comboSum_perm {l l' : List Byte} (h : l.Perm l') : comboSum l = comboSum l' := by
  rw [comboSum_eq_sum, comboSum_eq_sum]
  exact (h.map _).sum_eq

/-- R212: the key depends on the sum alone. -/
theorem comboKey_congr {l l' : List Byte} (h : comboSum l = comboSum l') : comboKey l = comboKey l' := by
  rw [comboKey, comboKey, comboAddress, comboAddress, h]

/-- R222: `REGC` with `S = 2^(i-1) - 1` has the key of `REGS i`. -/
theorem comboKey_eq_singleKey {i : Byte} {indices : List Byte} (low : 1 ≤ i.toNat) (high : i.toNat ≤ 8)
    (h : comboSum indices = 2 ^ (i.toNat - 1) - 1) : comboKey indices = singleKey i := by
  have pos : 0 < 2 ^ (i.toNat - 1) := Nat.two_pow_pos _
  have le : 2 ^ (i.toNat - 1) ≤ 2 ^ 7 := Nat.pow_le_pow_right (by decide) (by omega)
  rw [singleKey_eq_some.mpr ⟨⟨low, high⟩, rfl⟩]
  exact comboKey_eq_some.mpr ⟨by omega, by omega⟩

/-- R28: a second registration under a free key's first one is ignored. -/
theorem read_register_twice {m : Memory} {a : Nat} (free : Memory.read m a = none) (h h' : Byte) :
    Memory.read (Memory.register (Memory.register m a h) a h') a = some h := by
  have first : Memory.read (Memory.register m a h) a = some h := (read_register m a h a).trans (if_pos ⟨rfl, free⟩)
  rw [read_register, first, if_neg (by simp)]

/-- R211, R212: a registration under a key of its domain answers `OK` and stores its handler if the key is free. -/
theorem registration_completes {s : State} {key : Option Nat} {a : Nat} (live : s.halted = false)
    (hkey : key = some a) (h : Byte) :
    ∃ m, unlessHalted s.issuer (registerOp s.issuer key h) s =
        { s with map := m, trace := s.trace ++ [.resp s.issuer (.ok 0)] } ∧
      ∀ b, Memory.read m b = if b = a ∧ Memory.read s.map b = none then some h else Memory.read s.map b := by
  subst hkey
  refine ⟨Memory.register s.map a h, unlessHalted_live live _ _, fun b => ?_⟩
  have free : (b = a ∧ Memory.read s.map a = none) ↔ (b = a ∧ Memory.read s.map b = none) :=
    and_congr_right fun hb => by rw [hb]
  rw [read_register, if_congr free rfl rfl]

/-- Settles O25: the index is in the domain of `singleKey`. -/
theorem regsCompletes : Obligations.RegsCompletes := by
  intro s i h live low high
  obtain ⟨m, run, read⟩ := registration_completes live (singleKey_eq_some.mpr ⟨⟨low, high⟩, rfl⟩) h
  exact ⟨m, congrArg Host.Outcome.next run, read⟩

/-- Settles O26: the sum is in the domain of `comboKey`. -/
theorem regcCompletes : Obligations.RegcCompletes := by
  intro s h indices live le
  rw [← comboSum_eq_sum] at le ⊢
  obtain ⟨m, run, read⟩ := registration_completes live (comboKey_eq_some.mpr ⟨le, rfl⟩) h
  exact ⟨m, congrArg Host.Outcome.next run, read⟩

/-- Settles O27: the general collision gives the three named ones; the sum does not see the order, and every key is at
most 254. -/
theorem registrationKeys : Obligations.RegistrationKeys := by
  refine ⟨fun i indices low high h => comboKey_eq_singleKey low high h, by decide, by decide, by decide,
    fun l l' h => comboKey_congr (comboSum_perm h), fun m a h h' free => read_register_twice free h h', ?_, ?_⟩
  · intro i h
    exact absurd (singleKey_le h) (by decide)
  · intro l h
    exact absurd (comboKey_le h) (by decide)

/-! ### Control -/

/-- R213: a restart of a poller that runs is no more than the load of its interval. -/
theorem setintOp_eq (c : Ctx) (ms : Word32) (s : State) :
    setintOp c ms s = if ms = 0 then refuse c .badOperand s
      else if s.running = true ∧ s.tickBusy = true then setWait c (some (.setint ms)) s
      else { s with interval := ms, trace := s.trace ++ [.resp c (.ok 0)] } := by
  rw [setintOp]
  refine if_congr Iff.rfl rfl ?_
  cases run : s.running with
  | false => simp [respond, emit]
  | true => cases busy : s.tickBusy <;> simp [restartPoller, respond, emit, busy]

/-- R214: after POLLSTART the poller runs, whether it ran before or not. -/
theorem pollstartOp_eq (c : Ctx) (s : State) :
    pollstartOp c s = { s with running := true, trace := s.trace ++ [.resp c (.ok 0)] } := by
  rw [pollstartOp]
  cases run : s.running <;> simp [respond, emit, run]

/-- R215: after POLLSTOP the poller is idle, whether it ran or not, unless a tick in flight holds the operation. -/
theorem pollstopOp_eq (c : Ctx) (s : State) :
    pollstopOp c s = if s.running = true ∧ s.tickBusy = true then setWait c (some .pollstop) s
      else { s with running := false, trace := s.trace ++ [.resp c (.ok 0)] } := by
  rw [pollstopOp]
  cases run : s.running with
  | false => simp [respond, emit, run]
  | true => cases busy : s.tickBusy <;> simp [stopPoller, respond, emit, busy]

/-- Settles O28. -/
theorem setintCompletes : Obligations.SetintCompletes := fun s ms live nonzero =>
  congrArg Host.Outcome.next ((unlessHalted_live live _ _).trans ((setintOp_eq s.issuer ms s).trans (if_neg nonzero)))

/-- Settles O29. -/
theorem pollstartAndPollstopComplete : Obligations.PollstartAndPollstopComplete := fun s live =>
  ⟨congrArg Host.Outcome.next ((unlessHalted_live live _ _).trans (pollstartOp_eq s.issuer s)),
    congrArg Host.Outcome.next ((unlessHalted_live live _ _).trans (pollstopOp_eq s.issuer s))⟩

/-! ### A held operation -/

section
variable {s : State} {c : Ctx}

/-- R213, R215: a tick in flight keeps a context held. -/
theorem resume_busy (busy : s.tickBusy = true) : resume c s = s := by
  unfold resume
  split
  · rfl
  · exact if_pos (by simp [busy])

/-- R215: a held POLLSTOP ends. -/
theorem resume_pollstop (live : s.halted = false) (free : s.tickBusy = false) (hw : waitOf c s = some .pollstop) :
    resume c s = stopPoller c (setWait c none s) := by
  simp [resume, hw, live, free]

/-- R213: a held SETINT ends. -/
theorem resume_setint {ms : Word32} (live : s.halted = false) (free : s.tickBusy = false)
    (hw : waitOf c s = some (.setint ms)) : resume c s = restartPoller c ms (setWait c none s) := by
  simp [resume, hw, live, free]

end

/-- R215: the registers a POLLSTOP writes are not those that hold it. -/
theorem stopPoller_setWait (c : Ctx) (w : Option Held) (s : State) :
    stopPoller c (setWait c w s) = setWait c w { s with running := false, trace := s.trace ++ [.resp c (.ok 0)] } := by
  cases c <;> rfl

/-- R213: the registers a SETINT writes are not those that hold it. -/
theorem restartPoller_setWait (c : Ctx) (ms : Word32) (w : Option Held) (s : State) :
    restartPoller c ms (setWait c w s) =
      setWait c w { s with running := true, interval := ms, trace := s.trace ++ [.resp c (.ok 0)] } := by
  cases c <;> rfl

/-- Settles O30: the three steps of `resume`. -/
theorem heldOperationsEnd : Obligations.HeldOperationsEnd := by
  intro s c w rest held hs hw live
  have waits : waitOf c (taken w rest s) = some held := by rw [← hw]; cases c <;> rfl
  refine (step_turn hs).trans (congrArg Host.Outcome.next ?_)
  cases busy : s.tickBusy with
  | true => exact resume_busy busy
  | false =>
    cases held with
    | pollstop => exact (resume_pollstop (s := taken w rest s) live busy waits).trans (stopPoller_setWait _ _ _)
    | setint ms => exact (resume_setint (s := taken w rest s) live busy waits).trans (restartPoller_setWait _ _ _ _)

/-! ### Frames -/

/-- What holds of an operation's refusal and of its run holds after it. -/
theorem unlessHalted_next {F : State → Prop} {c : Ctx} {f : State → State} {s t : State}
    (h : Host.Outcome.next (unlessHalted c f s) = (.next t : Host.Outcome State Fault Refusal))
    (refused : F (refuse c .halted s)) (runs : F (f s)) : F t := by
  cases h
  unfold unlessHalted
  split
  · exact refused
  · exact runs

/-- R211, R212, R28: `t` is `s` but for the map at the key and the trace. -/
def MapAtKey (key : Option Nat) (s t : State) : Prop :=
  t = { s with map := t.map, trace := t.trace } ∧ ∀ a, key ≠ some a → Memory.read t.map a = Memory.read s.map a

theorem respond_mapAtKey (key : Option Nat) (c : Ctx) (r : Response) (s : State) : MapAtKey key s (respond c r s) :=
  ⟨rfl, fun _ _ => rfl⟩

theorem registerOp_mapAtKey (c : Ctx) (key : Option Nat) (h : Byte) (s : State) :
    MapAtKey key s (registerOp c key h s) := by
  cases key with
  | none => exact respond_mapAtKey _ _ _ _
  | some a =>
    refine ⟨rfl, fun b hb => (read_register s.map a h b).trans (if_neg ?_)⟩
    rintro ⟨rfl, -⟩
    exact hb rfl

/-- R213: `t` is `s` but for the interval, the held operations and the trace. -/
def IntervalOrHeld (s t : State) : Prop :=
  t = { s with interval := t.interval, appWait := t.appWait, handlerWait := t.handlerWait, trace := t.trace }

theorem setintOp_intervalOrHeld (c : Ctx) (ms : Word32) (s : State) : IntervalOrHeld s (setintOp c ms s) := by
  rw [setintOp_eq]
  split_ifs
  · rfl
  · cases c <;> rfl
  · rfl

/-- R215: `t` is `s` but for RUNNING, the held operations and the trace. -/
def RunningOrHeld (s t : State) : Prop :=
  t = { s with running := t.running, appWait := t.appWait, handlerWait := t.handlerWait, trace := t.trace }

theorem pollstopOp_runningOrHeld (c : Ctx) (s : State) : RunningOrHeld s (pollstopOp c s) := by
  rw [pollstopOp_eq]
  split_ifs
  · cases c <;> rfl
  · rfl

/-- R96: the trace of `t` is that of `s`, and at most one response to `c`. -/
def AnswersOnce (c : Ctx) (s t : State) : Prop := t.trace = s.trace ∨ ∃ r, t.trace = s.trace ++ [.resp c r]

theorem respond_answersOnce (c : Ctx) (r : Response) (s : State) : AnswersOnce c s (respond c r s) := .inr ⟨r, rfl⟩

theorem setWait_answersOnce (c : Ctx) (w : Option Held) (s : State) : AnswersOnce c s (setWait c w s) := by
  cases c <;> exact .inl rfl

theorem registerOp_answersOnce (c : Ctx) (key : Option Nat) (h : Byte) (s : State) :
    AnswersOnce c s (registerOp c key h s) := by
  cases key <;> exact .inr ⟨_, rfl⟩

theorem setintOp_answersOnce (c : Ctx) (ms : Word32) (s : State) : AnswersOnce c s (setintOp c ms s) := by
  rw [setintOp_eq]
  split_ifs
  · exact respond_answersOnce _ _ _
  · exact setWait_answersOnce _ _ _
  · exact .inr ⟨_, rfl⟩

theorem pollstartOp_answersOnce (c : Ctx) (s : State) : AnswersOnce c s (pollstartOp c s) :=
  .inr ⟨_, congrArg State.trace (pollstartOp_eq c s)⟩

theorem pollstopOp_answersOnce (c : Ctx) (s : State) : AnswersOnce c s (pollstopOp c s) := by
  rw [pollstopOp_eq]
  split_ifs
  · exact setWait_answersOnce _ _ _
  · exact .inr ⟨_, rfl⟩

/-- Settles O59: a refusal and each of the five runs write no more than the operation's own registers. -/
theorem frameOfPollerOperations : Obligations.FrameOfPollerOperations := by
  refine ⟨fun i s t key hi h => ?_, fun s t ms h => ?_, fun s t h => ?_, fun s t h => ?_, fun i s t hi h => ?_⟩
  · change MapAtKey key s t
    have refused := respond_mapAtKey key s.issuer (.refused .halted) s
    rcases hi with ⟨n, id, rfl, rfl⟩ | ⟨id, l, rfl, rfl⟩ <;>
      exact unlessHalted_next h refused (registerOp_mapAtKey _ _ _ _)
  · exact unlessHalted_next (F := IntervalOrHeld s) h rfl (setintOp_intervalOrHeld _ _ _)
  · exact unlessHalted_next (F := fun t => t = { s with running := t.running, trace := t.trace }) h rfl
      (by rw [pollstartOp_eq])
  · exact unlessHalted_next (F := RunningOrHeld s) h rfl (pollstopOp_runningOrHeld _ _)
  · change AnswersOnce s.issuer s t
    have refused := respond_answersOnce s.issuer (.refused .halted) s
    rcases hi with ⟨n, id, rfl⟩ | ⟨id, l, rfl⟩ | ⟨ms, rfl⟩ | rfl | rfl
    · exact unlessHalted_next h refused (registerOp_answersOnce _ _ _ _)
    · exact unlessHalted_next h refused (registerOp_answersOnce _ _ _ _)
    · exact unlessHalted_next h refused (setintOp_answersOnce _ _ _)
    · exact unlessHalted_next h refused (pollstartOp_answersOnce _ _)
    · exact unlessHalted_next h refused (pollstopOp_answersOnce _ _)

end Sys2Proof.Machine
end

section
/-!
The poll timer up to a dispatch (R216 to R220): a firing reads the switches or is dropped, and the sampled
byte is compared with the last one and looked up.
-/

namespace Sys2Proof.Machine

open Sys2Proof.Claims

section
variable {s : State} {readOk : Bool} {w : List Slot} {rest : List Turn}

/-- A turn of POLLT is one step of the poll timer. -/
theorem step_pollt (h : s.agenda = ⟨.pollt readOk, w⟩ :: rest) :
    step s = .next (polltStep readOk (taken w rest s)) := step_turn h

/-- R216, R217: the timer fires while the poller runs and no tick is in flight. -/
theorem polltStep_fires (live : s.halted = false) (idle : s.tick = .idle) (run : s.running = true)
    (free : s.tickBusy = false) : polltStep readOk s = tickSample readOk s := by
  simp [polltStep, live, idle, run, free]

/-- R216: the step of POLLT after `RD(SW, v)`. -/
theorem polltStep_sampled {v : Byte} (live : s.halted = false) (sampled : s.tick = .sampled v) :
    polltStep readOk s = tickLookup v s := by
  simp [polltStep, live, sampled]

/-- R271: a raise at the read of the switches is recorded and ends the tick that has just begun. -/
theorem raiseFault_unread {r : Raised} (hr : ∀ h, r ≠ .handlerFault h) (idle : s.tick = .idle)
    (free : s.tickBusy = false) :
    raiseFault .tick r { s with tickBusy := true } =
      { s with fault := s.fault.or (some (raisedCode r)), raises := s.raises ++ [r] } := by
  cases r with
  | handlerFault h => exact absurd rfl (hr h)
  | _ => simp [raiseFault, leaveActivity, releaseSeq, recordFault, idle, free]

/-- R216, R262: the three outcomes of the read of the switches. -/
theorem tickSample_eq (idle : s.tick = .idle) (free : s.tickBusy = false) :
    tickSample readOk s =
      if s.devOpen = true ∧ readOk = true then
        { s with tickBusy := true, tick := .sampled s.sw, trace := s.trace ++ [.rd .sw s.sw] }
      else if s.devOpen = true then
        { s with fault := s.fault.or (some .ioFault), raises := s.raises ++ [.ioFault .tick 0] }
      else
        { s with fault := s.fault.or (some .deviceNotOpen), raises := s.raises ++ [.deviceNotOpen .tick 0] } := by
  rw [tickSample, raiseFault_unread (by simp) idle free, raiseFault_unread (by simp) idle free]
  by_cases opened : s.devOpen = true
  · rw [if_pos opened, ite_and, if_pos opened, if_pos opened]
    rfl
  · rw [if_neg opened, if_neg (opened ·.1), if_neg opened]
    rfl

end

/-- Settles O36. -/
theorem tickSamplesSwitches : Obligations.TickSamplesSwitches := by
  intro s readOk w rest hs live idle run free
  rw [step_pollt hs, polltStep_fires (s := taken w rest s) live idle run free]
  exact congrArg Host.Outcome.next (tickSample_eq (s := taken w rest s) idle free)

/-- Settles O37: the three ways on from a sampled value. -/
theorem tickFiltersAndDispatches : Obligations.TickFiltersAndDispatches := by
  intro s readOk w rest v hs live sampled
  rw [step_pollt hs, polltStep_sampled (s := taken w rest s) live sampled, tickLookup]
  refine ⟨fun same => ?_, fun new unlisted => ?_, fun h new listed free => ?_⟩
  · exact congrArg Host.Outcome.next (if_pos same)
  · simp [taken, new, unlisted, tickEnd]
  · simp [taken, new, listed, free, emit]

/-- Settles O39: each reason makes the step of POLLT none at all. -/
theorem ticksAreDropped : Obligations.TicksAreDropped := by
  intro s readOk w rest hs dropped
  rw [step_pollt hs, polltStep]
  rcases dropped with ⟨h, handling⟩ | ⟨idle, asleep | busy⟩ | halted
  · simp [taken, handling]
  · simp [taken, idle, asleep]
  · simp [taken, idle, busy]
  · simp [taken, halted]

end Sys2Proof.Machine
end

section
/-!
The display session in a quiet schedule (R240 to R243): what the switches of the display and of the backlight leave, and
the exact next states of SDISP, SBL, SWRITE and SWRITET.
-/

namespace Sys2Proof.Machine

open Sys2Proof.Claims

/-! ### The power switches -/

/-- `s` with its display-control byte and the session's power flags replaced. -/
def powered (dc : Byte) (display backlight : Bool) (s : State) : State :=
  { s with dc := dc, displayOn := display, backlightOn := backlight }

section
variable {s : State}

theorem played_nil (s : State) : played [] s.pb s = s := by simp [played]

/-- R240, R242: what is off is switched on; nothing happens to a display that is on. -/
theorem displayOnBody_quiet (h : Quiet s) :
    displayOnBody s = .ok (played (busesEvents s.cfg (powerBytes s) s.pb) (busesPb s.cfg (powerBytes s) s.pb)
      (powered (if s.displayOn then s.dc else s.dc ||| s.cfg.dcD) true s.backlightOn s)) := by
  cases hd : s.displayOn with
  | true =>
    have same : powered s.dc true s.backlightOn s = s := by rw [← hd]; rfl
    simp only [displayOnBody, powerBytes, hd, if_true, busesEvents, busesPb, same]
    exact congrArg Except.ok (played_nil s).symm
  | false =>
    simp only [displayOnBody, powerBytes, hd, Bool.false_eq_true, if_false, disponBody, dcBody_quiet h, bind_ok,
      busesEvents, busesPb, List.append_nil]
    rfl

/-- R241, R242. -/
theorem backlightOnBody_quiet (h : Quiet s) :
    backlightOnBody s = .ok (played (if s.backlightOn then [] else [.bw .pb s.cfg.pinBl true])
      (if s.backlightOn then s.pb else setBit s.pb s.cfg.pinBl true) (powered s.dc s.displayOn true s)) := by
  cases hb : s.backlightOn with
  | true =>
    have same : powered s.dc s.displayOn true s = s := by rw [← hb]; rfl
    simp only [backlightOnBody, hb, if_true, same]
    exact congrArg Except.ok (played_nil s).symm
  | false =>
    simp only [backlightOnBody, hb, Bool.false_eq_true, if_false, backlightBody_quiet h, bind_ok]
    rfl

/-- R240, R241. -/
theorem backlightOffBody_quiet (h : Quiet s) :
    backlightOffBody s = .ok (played (if s.backlightOn then [.bw .pb s.cfg.pinBl false] else [])
      (if s.backlightOn then setBit s.pb s.cfg.pinBl false else s.pb) (powered s.dc s.displayOn false s)) := by
  cases hb : s.backlightOn with
  | true =>
    simp only [backlightOffBody, hb, if_true, backlightBody_quiet h, bind_ok]
    rfl
  | false =>
    have same : powered s.dc s.displayOn false s = s := by rw [← hb]; rfl
    simp only [backlightOffBody, hb, Bool.false_eq_true, if_false, same]
    exact congrArg Except.ok (played_nil s).symm

/-- R240, R244: the command that switches the display off. -/
def displayOffCommand (s : State) : Byte := s.cfg.cmdDispCtrl ||| (s.dc &&& ~~~s.cfg.dcD)

/-- R240, R244: a display that is on is switched off, and then the light if it is on. -/
theorem displayOffBody_quiet (h : Quiet s) (hd : s.displayOn = true) :
    displayOffBody s = .ok (played
      (busEvents s.cfg false (displayOffCommand s) s.pb ++ if s.backlightOn then [.bw .pb s.cfg.pinBl false] else [])
      (if s.backlightOn then setBit (busPb s.cfg false (displayOffCommand s) s.pb) s.cfg.pinBl false
        else busPb s.cfg false (displayOffCommand s) s.pb)
      (powered (s.dc &&& ~~~s.cfg.dcD) false false s)) := by
  rw [displayOffBody, if_pos hd, dispoffBody, dcBody_quiet h, bind_ok, backlightOffBody_quiet (by exact h)]
  exact congrArg Except.ok (played_played _ _ _ _ (powered (s.dc &&& ~~~s.cfg.dcD) false false s))

end

/-! ### SDISP and SBL -/

/-- Settles O31: the no-ops by `switchOp_noop`, the switches by the bodies above. -/
theorem sdispCompletes : Obligations.SdispCompletes := by
  refine ⟨fun s live on => ?_, fun s live off => ?_, fun s h off => ?_, fun s h on => ?_⟩
  · exact switchOp_noop live rfl (by simp [sdispTouches, on])
  · exact switchOp_noop live rfl (by simp [sdispTouches, off])
  · refine switchOp_answers h rfl (by simp [sdispTouches, off]) (displayOnBody_quiet (by exact h.2.2)) ?_
    simp only [answered, respond, emit, played, powered, powerBytes, off, Bool.false_eq_true, if_false,
      List.append_assoc, ← h.2.1]
  · refine switchOp_answers h rfl (by simp [sdispTouches, on]) (displayOffBody_quiet (by exact h.2.2) on) ?_
    simp only [respond, emit, played, powered, displayOffCommand, List.append_assoc, ← h.2.1]

/-- R241: SBL has something to do exactly where the state changes. -/
theorem sblTouches_stateByte (s : State) (on : Bool) : sblTouches (stateByte on) s = (s.backlightOn != on) := by
  cases on <;> simp [sblTouches, stateByte]

theorem legalState_stateByte (on : Bool) : legalState (stateByte on) = true := by cases on <;> rfl

/-- R241: a change of state is one write of the line, and the flag follows. -/
theorem sblBody_quiet {s : State} (h : Quiet s) {on : Bool} (changes : s.backlightOn = !on) :
    sblBody (stateByte on) s = .ok (played [.bw .pb s.cfg.pinBl on] (setBit s.pb s.cfg.pinBl on)
      (powered s.dc s.displayOn on s)) := by
  cases on with
  | true =>
    have switched := backlightOnBody_quiet h
    rwa [changes] at switched
  | false =>
    have switched := backlightOffBody_quiet h
    rwa [changes] at switched

/-- Settles O32. -/
theorem sblCompletes : Obligations.SblCompletes := by
  refine ⟨fun s on live same => ?_, fun s on h changes => ?_⟩
  · exact switchOp_noop live (legalState_stateByte on) ((sblTouches_stateByte s on).trans (by simp [same]))
  · refine switchOp_answers h (legalState_stateByte on) ((sblTouches_stateByte s on).trans (by simp [changes]))
      (sblBody_quiet (by exact h.2.2) changes) ?_
    simp only [respond, emit, played, powered, List.append_assoc, List.singleton_append, ← h.2.1]

/-! ### SWRITE and SWRITET -/

section
variable {s : State}

/-- R242: powering up is switching on the display and then the backlight, each if it is off. -/
theorem powerUp_eq (s : State) : powerUp s = displayOnBody s >>= backlightOnBody := by
  rw [powerUp]
  split
  · next on =>
    obtain ⟨hd, hb⟩ := Bool.and_eq_true_iff.mp on
    simp only [displayOnBody, hd, if_true, bind_ok, backlightOnBody, hb]
  · rfl

/-- R242: the events of the power-up. -/
def powerEvents (s : State) : List Event :=
  busesEvents s.cfg (powerBytes s) s.pb ++ if s.backlightOn then [] else [.bw .pb s.cfg.pinBl true]

theorem powerUp_quiet (h : Quiet s) :
    powerUp s = .ok (played (powerEvents s) (poweredPb s)
      (powered (if s.displayOn then s.dc else s.dc ||| s.cfg.dcD) true true s)) := by
  rw [powerUp_eq, displayOnBody_quiet h, bind_ok, backlightOnBody_quiet (by exact h)]
  exact congrArg Except.ok (played_played _ _ _ _ (powered _ true true s))

/-- R242, R245: after the cancel no timer is pending. -/
theorem cancelPending_free (free : s.timeoutActive = true → s.expBusy = false) :
    cancelPending s = .ok { s with timeoutActive := false } := by
  cases ht : s.timeoutActive with
  | true => rw [cancelPending, if_pos ht, cancelTimer, if_neg (by simp [free ht])]
  | false =>
    rw [cancelPending, if_neg (by simp [ht]), ← ht]

/-- R242: the registers a session write leaves. -/
def sessionWritten (text : List Byte) (s : State) : State :=
  atCursor (textCursor s.cfg text s.addr s.row)
    (powered (if s.displayOn then s.dc else s.dc ||| s.cfg.dcD) true true { s with timeoutActive := false })

theorem swriteBody_quiet (text : List Byte) (h : Quiet s) (free : s.timeoutActive = true → s.expBusy = false) :
    swriteBody text s = .ok (played (swriteEvents s text)
      (busesPb s.cfg (writeBytes s.cfg text s.addr s.row) (poweredPb s)) (sessionWritten text s)) := by
  rw [swriteBody, powerUp_quiet h, bind_ok, cancelPending_free (by exact free), bind_ok,
    writeBody_quiet text (by exact h)]
  exact congrArg Except.ok (played_played _ _ _ _ (sessionWritten text s))

/-- R243: and then the timer starts. -/
theorem swritetBody_quiet (text : List Byte) (ms : Word32) (h : Quiet s)
    (free : s.timeoutActive = true → s.expBusy = false) :
    swritetBody text ms s = .ok (played (swriteEvents s text)
      (busesPb s.cfg (writeBytes s.cfg text s.addr s.row) (poweredPb s)) (armTimer ms (sessionWritten text s))) := by
  rw [swritetBody, swriteBody_quiet text h free, bind_ok]
  rfl

end

/-- Settles O33. -/
theorem swriteCompletes : Obligations.SwriteCompletes := by
  intro s text h free
  refine lcdOp_answers h (v := (textCursor s.cfg text s.addr s.row).1)
    (swriteBody_quiet text (by exact h.2.2) (by exact free)) rfl ?_
  simp only [swritten, sessionWritten, respond, emit, played, powered, atCursor, List.append_assoc, ← h.2.1]
  rfl

/-- Settles O34: the body of SWRITE, and then the timer starts. -/
theorem swritetCompletes : Obligations.SwritetCompletes := by
  intro s text ms h free
  refine lcdOp_answers h (v := (textCursor s.cfg text s.addr s.row).1)
    (swritetBody_quiet text ms (by exact h.2.2) (by exact free)) rfl ?_
  simp only [swritten, armTimer, sessionWritten, respond, emit, played, powered, atCursor, List.append_assoc, ← h.2.1]
  rfl

end Sys2Proof.Machine
end

section
/-!
The auto-off expiry (R244): it runs CLEAR and then the switch-off as an activity of OFFT, and frees the sequencer; what it
leaves in a quiet schedule, with the device closed, when a register access fails (R264, R271), and when it starts during
another activity (R265).
-/

namespace Sys2Proof.Machine

open Sys2Proof.Claims

/-- R244: the expiry has cancelled itself and taken the sequencer. -/
def expiring (s : State) : State :=
  { s with expBusy := true, timeoutActive := false, seq := .busy .offt .expire 0 }

/-- R244: what it then does to the port and the registers. -/
def expireBody (s : State) : Except Stop State := clearBody s >>= displayOffBody

/-- R30: its end. -/
def expired (s : State) : State := { s with expBusy := false, seq := .idle }

section
variable {s : State}

theorem expire_begun (pending : s.timeoutActive = true) (live : s.halted = false) (idle : s.seq = .idle) :
    expire s = conclude (expireBody (expiring s) >>= fun t => .ok (expired t)) := by
  have start : startLcd .expire .offt .expire { s with expBusy := true, timeoutActive := false } = .ok (expiring s) :=
    startLcd_idle idle
  rw [expire, if_pos (by rw [pending, live]; rfl)]
  dsimp only
  rw [start, bind_ok, expireBody, bind_assoc]
  rfl

/-- R265: another activity is in flight. -/
theorem expiryCollides_busy {a : Agent} {inFlight : OpName} {n : Nat} (live : s.halted = false)
    (pending : s.timeoutActive = true) (busy : s.seq = .busy a inFlight n) :
    expiryCollides s =
      raiseFault .expire (.concurrentLcd .expire inFlight) { s with expBusy := true, timeoutActive := false } := by
  rw [expiryCollides, if_pos (by rw [pending, live]; rfl), busy]

/-! ### In a quiet schedule -/

/-- R164. -/
theorem clearBody_quiet (h : Quiet s) :
    clearBody s = .ok (played (busEvents s.cfg false s.cfg.cmdClear s.pb ++ [.dly .clear])
      (busPb s.cfg false s.cfg.cmdClear s.pb) (cursorHome s)) := by
  rw [clearBody, sendSlowCommand_quiet h]
  rfl

/-- R240: where the session holds the display off, the expiry clears and is done. -/
theorem expireBody_dark (h : Quiet s) (off : s.displayOn = false) : expireBody s = clearBody s := by
  rw [expireBody, clearBody_quiet h, bind_ok]
  exact displayOffBody_idle off

/-- R244: where the display is on, it is switched off after the clear, and the light with it. -/
theorem expireBody_lit (h : Quiet s) (on : s.displayOn = true) :
    expireBody s = .ok (played
      (busEvents s.cfg false s.cfg.cmdClear s.pb ++ [.dly .clear] ++
        (busEvents s.cfg false (displayOffCommand s) (busPb s.cfg false s.cfg.cmdClear s.pb) ++
          if s.backlightOn then [.bw .pb s.cfg.pinBl false] else []))
      (if s.backlightOn then
        setBit (busPb s.cfg false (displayOffCommand s) (busPb s.cfg false s.cfg.cmdClear s.pb)) s.cfg.pinBl false
        else busPb s.cfg false (displayOffCommand s) (busPb s.cfg false s.cfg.cmdClear s.pb))
      (powered (s.dc &&& ~~~s.cfg.dcD) false false (cursorHome s))) := by
  rw [expireBody, clearBody_quiet h, bind_ok, displayOffBody_quiet (by exact h) (by exact on)]
  exact congrArg Except.ok (played_played _ _ _ _ (powered (s.dc &&& ~~~s.cfg.dcD) false false (cursorHome s)))

/-! ### With the device closed -/

/-- R264: a bus byte gets no further than its first access. -/
theorem sendBus_closed (closed : s.devOpen = false) (rs : Bool) (v : Byte) :
    sendBus rs v s = .error (.ended (raiseFault (ownerOf s) (notOpenOf s) s)) := by
  rw [sendBus, setRs, bitWrite, access, if_neg (by simp [closed])]
  rfl

theorem expireBody_closed (closed : s.devOpen = false) :
    expireBody s = .error (.ended (raiseFault (ownerOf s) (notOpenOf s) s)) := by
  rw [expireBody, clearBody, sendSlowCommand, sendCommand, sendBus_closed closed]
  rfl

/-! ### With an access that fails -/

theorem expireBody_precise (s : State) : Precise expireBody s := (clearBody_precise s).bind displayOffBody_precise

/-- No timeout is pending, and the turns still to come are `rest`. -/
def Cancelled (rest : List Turn) (s : State) : Prop := s.timeoutActive = false ∧ s.agenda = rest

theorem Cancelled.raise {rest : List Turn} (h : Cancelled rest s) (who : Raiser) (r : Raised) :
    Cancelled rest (raiseFault who r s) := by
  rw [raiseFault_frame]
  exact h

theorem cancelled_woven (rest : List Turn) :
    Woven (fun _ => false) (fun s => weaveAll (fun _ => false) s.weave = true ∧ Cancelled rest s)
      (StopIn (Cancelled rest)) where
  tested _ h := h.1
  event _ _ h := ⟨weaveAll_tail h.1, h.2⟩
  latch _ _ h := h
  step _ _ ha := nomatch ha
  failed s h _ := Cancelled.raise (s := popSlot s) h.2 _ _
  closed _ h _ := h.2.raise _ _

/-- R244: nothing in the expiry sets the timer again. -/
theorem expireBody_cancelled {rest : List Turn} (alone : Alone s) (h : Cancelled rest s) :
    Ends (fun t => weaveAll (fun _ => false) t.weave = true ∧ Cancelled rest t) (StopIn (Cancelled rest))
      (expireBody s) :=
  have w := cancelled_woven rest
  (clearBody_ends w (fun _ _ _ h => h) (fun _ _ _ h => h) ⟨(alone_iff_weaveAll s).mp alone, h⟩).bind fun _ h =>
    displayOffBody_ends w (fun _ h => h) (fun _ _ h => h) (fun _ _ h => h) h

theorem alone_armed (k : Nat) (s : State) : Alone (armed k s) := by
  intro slot hs
  rcases List.mem_append.mp hs with hs | hs
  · rw [List.eq_of_mem_replicate hs]
  · rw [List.mem_singleton.mp hs]

/-- What a fault at the register access after the events `es` of an expiry leaves (R271). -/
def ExpiryFaultedAfter (es : List Event) (s u : State) : Prop :=
  u.trace = s.trace ++ es ∧ u.pb = latchAfter s.pb es ∧ u.seq = .idle ∧ u.expBusy = false ∧ u.halted = s.halted ∧
    u.fault = s.fault.or (some .ioFault) ∧ u.raises = s.raises ++ [.ioFault .expire es.length]

/-- R271: OFFT owns the sequencer, and the position is the number of events before the access. -/
theorem FailsAfter.expiry_faulted {es : List Event} {r : Except Stop State} (h : FailsAfter es (expiring s) r) :
    ∃ u, r = .error (.ended u) ∧ ExpiryFaultedAfter es s u := by
  obtain ⟨t, p, rfl⟩ := h
  have seq : t.seq = .busy .offt .expire es.length := by
    rw [p.seq, expiring, iterate_advance_busy, Nat.zero_add]
  have raised : ioFaultOf t = .ioFault .expire es.length := by rw [ioFaultOf, positionOf, seq]
  rw [ownerOf_offt ⟨_, _, seq⟩, raised]
  exact ⟨_, rfl, p.trace, p.pb, rfl, rfl, p.halted, congrArg (Option.or · _) p.fault, congrArg (· ++ _) p.raises⟩

/-- R262, R271: if event number `k` of the quiet expiry is a register access, the expiry in which it fails stops there. -/
theorem expire_faults {t : State} {es : List Event} {k : Nat} {e : Event} (pending : s.timeoutActive = true)
    (live : s.halted = false) (idle : s.seq = .idle) (quiet : Quiet s) (ht : expire s = .next t)
    (htr : t.trace = s.trace ++ es) (hk : es[k]? = some e) (he : isAccess e = true) :
    ∃ u, expire (armed k s) = .next u ∧ ExpiryFaultedAfter (es.take k) s u ∧ Cancelled s.agenda u := by
  rw [expire_begun pending live idle] at ht
  obtain ⟨es', t', p, -, fails, ends⟩ := expireBody_precise (expiring s) quiet
  have stands : t.trace = t'.trace := by
    rcases ends with stop | ⟨ok, -⟩
    · rw [stop] at ht
      cases ht
      rfl
    · rw [ok] at ht
      cases ht
      rfl
  obtain rfl : es' = es := List.append_cancel_left (p.trace.symm.trans (stands.symm.trans htr))
  obtain ⟨u, hu, faulted⟩ := (fails k e hk he).expiry_faulted
  have run : expireBody (expiring (armed k s)) = .error (.ended u) := hu
  have cancelled := expireBody_cancelled (rest := s.agenda) (alone_armed k (expiring s)) ⟨rfl, rfl⟩
  rw [hu] at cancelled
  refine ⟨u, ?_, faulted, cancelled⟩
  rw [expire_begun (s := armed k s) pending live idle, run]
  rfl

end

/-! ### The statements -/

/-- R244: a turn of OFFT between activities is the expiry. -/
theorem step_offt {s : State} {w : List Slot} {rest : List Turn} (h : s.agenda = ⟨.offt, w⟩ :: rest) :
    step s = expire (taken w rest s) := step_turn h

/-- Settles O35: the two quiet runs of the body, the closed device, and `expire_faults`. -/
theorem expireCompletes : Obligations.ExpireCompletes := by
  refine ⟨fun s rest hs pending live idle opened => ?_, fun s w rest hs pending live idle closed => ?_,
    fun s t rest es k e hs pending live idle opened ht htr hk he => ?_⟩
  · dsimp only
    rw [step_offt hs, expire_begun (s := taken [] rest s) pending live idle]
    have quiet : Quiet (expiring (taken [] rest s)) := ⟨opened, rfl⟩
    cases hd : s.displayOn with
    | true =>
      rw [expireBody_lit quiet hd]
      simp only [bind_ok, conclude, if_true, expired, played, powered, cursorHome, expiring, taken, displayOffCommand,
        List.append_assoc, idle]
    | false =>
      rw [expireBody_dark quiet hd, clearBody_quiet quiet]
      simp only [bind_ok, conclude, Bool.false_eq_true, if_false, expired, played, cursorHome, expiring, taken, idle, hd]
  · rw [step_offt hs, expire_begun (s := taken w rest s) pending live idle, expireBody_closed (by exact closed)]
    simp only [taken, idle]
    rfl
  · have quiet : Quiet (taken [] rest s) := ⟨opened, rfl⟩
    rw [step_offt hs] at ht
    obtain ⟨u, hu, ⟨trace, pb, seq, exp, halted, fault, raises⟩, cancelled, agenda⟩ :=
      expire_faults (s := taken [] rest s) pending live idle quiet ht htr hk he
    have position : (es.take k).length = k := List.length_take_of_le (List.getElem?_eq_some_iff.mp hk).1.le
    rw [position] at raises
    exact ⟨u, hu, trace, pb, seq, exp, cancelled, halted.trans live, agenda, fault, raises⟩

/-- Settles O43. -/
theorem expiryDuringTransferCollides : Obligations.ExpiryDuringTransferCollides := by
  intro s a inFlight n live pending busy
  rw [act, expiryCollides_busy live pending busy, raiseFault_expire_concurrent]
  rfl

end Sys2Proof.Machine
end

section
/-!
The frame of the session operations (R240 to R243): SDISP and a session write load the display bit of `DC`, each loads
the session flags it switches, and a session write the cursor and the timer too; the rest is what any operation on the
port writes.
-/

namespace Sys2Proof.Machine

section
variable {F : State → Prop} (hF : OffPort F)
include hF

/-- Whatever becomes of SDISP or SBL where nothing intervenes, a property of what only its own loads write holds in the
end, if its body keeps it. -/
theorem OffPort.switchOp {op : OpName} {good touching : Bool} {body : State → Except Stop State} {s t : State}
    (alone : Alone s) (hs : F s) (h : switchOp op good touching body s = .next t)
    (hb : HostAlone (begun op s) ∧ F (begun op s) →
      Ends (fun u => HostAlone u ∧ F u) (StopIn F) (body (begun op s))) : F t := by
  rcases switchOp_next h fun _ _ => hb ⟨hostAlone_begun alone op, hF.of_eq hs rfl⟩ with
    ⟨r, rfl⟩ | ⟨-, a, op', n, -, rfl⟩ | ⟨-, -, stopped | ⟨u, ended, rfl⟩⟩
  · exact hF.of_eq hs rfl
  · exact hF.of_eq hs (offPort_raiseFault_host _ _ s)
  · exact stopped
  · exact hF.of_eq ended.2 rfl

end

/-! ### SBL -/

/-- The state without the backlight flag. -/
def offBacklight (s : State) : State := { s with backlightOn := false }

/-- Nothing but the port and the backlight flag is written. -/
def PortAndBacklight (s t : State) : Prop := offBacklight (offPort t) = offBacklight (offPort s)

theorem portAndBacklight_offPort (s : State) : OffPort (PortAndBacklight s) := fun _ => .rfl

theorem PortAndBacklight.eq {s t : State} (h : PortAndBacklight s t) :
    t = { s with
      backlightOn := t.backlightOn
      pb := t.pb
      seq := t.seq
      fault := t.fault
      trace := t.trace
      raises := t.raises
      weave := t.weave } :=
  congrArg (fun u : State => { u with
    backlightOn := t.backlightOn
    pb := t.pb
    seq := t.seq
    fault := t.fault
    trace := t.trace
    raises := t.raises
    weave := t.weave }) h

/-! ### SDISP -/

/-- The state without the display-control byte and the session's power flags. -/
def offPower (s : State) : State := { s with dc := 0, displayOn := false, backlightOn := false }

/-- R180: writing a flag writes its bits and keeps the others. -/
theorem getElem_putFlag (reg flag : Byte) (on : Bool) {i : Nat} (hi : i < 8) :
    (putFlag reg flag on)[i] = if flag[i] then on else reg[i] := by
  cases on <;> cases hf : flag[i] <;> simp [putFlag, hf]

/-- A flag that is written twice is as it was written last. -/
theorem putFlag_putFlag (reg flag : Byte) (before on : Bool) :
    putFlag (putFlag reg flag before) flag on = putFlag reg flag on := by
  apply BitVec.eq_of_getElem_eq
  intro i hi
  simp only [getElem_putFlag _ _ _ hi]
  split <;> rfl

/-- The display bit of `DC` is as it was, or it was written. -/
def DisplayBitOnly (s t : State) : Prop := t.dc = s.dc ∨ ∃ on, t.dc = putFlag s.dc s.cfg.dcD on

theorem DisplayBitOnly.of_flagDc {s t : State} (h : DisplayBitOnly s t) (cfg : t.cfg = s.cfg) (on : Bool) :
    DisplayBitOnly s (flagDc t.cfg.dcD on t) := by
  refine .inr ⟨on, ?_⟩
  rw [flagDc, cfg]
  rcases h with same | ⟨before, written⟩
  · exact congrArg (putFlag · _ on) same
  · exact (congrArg (putFlag · _ on) written).trans (putFlag_putFlag _ _ before on)

/-- Nothing but the port, the display bit and the session's power flags is written. -/
def PortAndPower (s t : State) : Prop := offPower (offPort t) = offPower (offPort s) ∧ DisplayBitOnly s t

theorem portAndPower_offPort (s : State) : OffPort (PortAndPower s) := fun _ => .rfl

theorem PortAndPower.eq {s t : State} (h : PortAndPower s t) :
    t = { s with
      dc := t.dc
      displayOn := t.displayOn
      backlightOn := t.backlightOn
      pb := t.pb
      seq := t.seq
      fault := t.fault
      trace := t.trace
      raises := t.raises
      weave := t.weave } :=
  congrArg (fun u : State => { u with
    dc := t.dc
    displayOn := t.displayOn
    backlightOn := t.backlightOn
    pb := t.pb
    seq := t.seq
    fault := t.fault
    trace := t.trace
    raises := t.raises
    weave := t.weave }) h.1

theorem PortAndPower.of_flagDc {s t : State} (h : PortAndPower s t) (on : Bool) :
    PortAndPower s (flagDc t.cfg.dcD on t) :=
  ⟨h.1, h.2.of_flagDc (show (offPower (offPort t)).cfg = (offPower (offPort s)).cfg from congrArg State.cfg h.1) on⟩

/-! ### SWRITE and SWRITET -/

/-- The state without what a session write loads. -/
def offSession (s : State) : State := { offCursor (offPower s) with timeoutActive := false, timeout := 0 }

/-- Nothing but the port and what a session write loads is written: of `DC` the display bit, which is only set, and the
length of the timeout only where the write is timed. -/
def PortAndSession (timed : Bool) (s t : State) : Prop :=
  offSession (offPort t) = offSession (offPort s) ∧ (t.dc = s.dc ∨ t.dc = putFlag s.dc s.cfg.dcD true) ∧
    (timed = false → t.timeout = s.timeout)

theorem portAndSession_offPort (timed : Bool) (s : State) : OffPort (PortAndSession timed s) := fun _ => .rfl

theorem PortAndSession.refl (timed : Bool) (s : State) : PortAndSession timed s s := ⟨rfl, .inl rfl, fun _ => rfl⟩

theorem PortAndSession.eq {timed : Bool} {s t : State} (h : PortAndSession timed s t) :
    t = { s with
      dc := t.dc
      displayOn := t.displayOn
      backlightOn := t.backlightOn
      timeoutActive := t.timeoutActive
      timeout := t.timeout
      addr := t.addr
      row := t.row
      pb := t.pb
      seq := t.seq
      fault := t.fault
      trace := t.trace
      raises := t.raises
      weave := t.weave } :=
  congrArg (fun u : State => { u with
    dc := t.dc
    displayOn := t.displayOn
    backlightOn := t.backlightOn
    timeoutActive := t.timeoutActive
    timeout := t.timeout
    addr := t.addr
    row := t.row
    pb := t.pb
    seq := t.seq
    fault := t.fault
    trace := t.trace
    raises := t.raises
    weave := t.weave }) h.1

/-- Setting the display bit twice is setting it once. -/
theorem PortAndSession.of_flagDc {timed : Bool} {s t : State} (h : PortAndSession timed s t) :
    PortAndSession timed s (flagDc t.cfg.dcD true t) := by
  obtain ⟨frame, bit, length⟩ := h
  have cfg : t.cfg = s.cfg :=
    show (offSession (offPort t)).cfg = (offSession (offPort s)).cfg from congrArg State.cfg frame
  refine ⟨frame, .inr ?_, length⟩
  rw [flagDc, cfg]
  rcases bit with same | set
  · exact congrArg (putFlag · _ true) same
  · exact (congrArg (putFlag · _ true) set).trans (putFlag_putFlag _ _ true true)

/-- Every load of a session write but the start of the timer. -/
theorem portAndSession_kept (timed : Bool) (s : State) :
    SessionWrite (fun t => HostAlone t ∧ PortAndSession timed s t) (StopIn (PortAndSession timed s)) where
  addr _ _ _ h := h
  row _ _ _ h := h
  dc _ h := ⟨h.1, h.2.of_flagDc⟩
  display _ _ h := h
  backlight _ _ h := h
  cancel _ h := h
  hang _ h _ := h.2

theorem portAndSession_of_exec_swrite {text : List Byte} {s t : State} (alone : Alone s)
    (h : exec (.swrite text) s = .next t) : PortAndSession false s t :=
  have hF := portAndSession_offPort false s
  hF.lcdOp alone (.refl _ s) h (swriteBody_ends hF.woven (portAndSession_kept false s) text)

theorem portAndSession_of_exec_swritet {text : List Byte} {ms : Word32} {s t : State} (alone : Alone s)
    (h : exec (.swritet text ms) s = .next t) : PortAndSession true s t :=
  have hF := portAndSession_offPort true s
  have arm : KeepsArm fun t => HostAlone t ∧ PortAndSession true s t :=
    fun _ _ ⟨host, frame, bit, _⟩ => ⟨host, frame, bit, nofun⟩
  hF.lcdOp alone (.refl _ s) h (swritetBody_ends hF.woven (portAndSession_kept true s) arm text ms)

/-- Settles O60: what the body of each operation loads. -/
theorem frameOfSessionOperations : Obligations.FrameOfSessionOperations := by
  refine ⟨fun s t st alone h => ?_, fun s t st alone h => ?_, fun i s t text hi alone h => ?_⟩
  · have hF := portAndPower_offPort s
    have flag (on : Bool) : KeepsDc (·.dcD) on fun t => HostAlone t ∧ PortAndPower s t :=
      fun _ h => ⟨h.1, h.2.of_flagDc on⟩
    have frame : PortAndPower s t := hF.switchOp alone ⟨rfl, .inl rfl⟩ h
      (sdispBody_ends hF.woven (flag true) (flag false) (fun _ _ h => h) (fun _ _ h => h) st)
    refine ⟨frame.eq, frame.2.imp_right ?_⟩
    rintro ⟨on, written⟩
    cases on with
    | true => exact .inl written
    | false => exact .inr written
  · have hF := portAndBacklight_offPort s
    exact (hF.switchOp alone rfl h (sblBody_ends hF.woven (fun _ _ h => h) st)).eq
  · rcases hi with rfl | ⟨ms, rfl⟩
    · have kept := portAndSession_of_exec_swrite alone h
      have ⟨_, bit, length⟩ := kept
      exact ⟨kept.eq, bit, fun _ => length rfl⟩
    · have kept := portAndSession_of_exec_swritet alone h
      have ⟨_, bit, _⟩ := kept
      exact ⟨kept.eq, bit, nofun⟩

end Sys2Proof.Machine
end

section
/-!
With the device closed (R136, R264) no piece of an operation gets further than its first register access: it stops,
with the registers it has loaded before it.
-/

namespace Sys2Proof.Machine

open Sys2Proof.Claims

/-- With the device closed the piece `f`, run from `s`, loads registers to `u` and raises at its first access. -/
def Barred (f : State → Except Stop State) (s u : State) : Prop :=
  u.devOpen = false → f s = .error (.ended (raiseFault (ownerOf u) (notOpenOf u) u))

section
variable {f g : State → Except Stop State} {s t u : State}

theorem Barred.bind (h : Barred f s u) (g : State → Except Stop State) : Barred (fun s => f s >>= g) s u :=
  fun closed => congrArg (· >>= g) (h closed)

/-- A piece that goes like `g` from another state, after its loads or a part that makes no access. -/
theorem Barred.of_eq (h : Barred g t u) (hf : f s = g t) : Barred f s u := fun closed => hf.trans (h closed)

/-! ### The bodies -/

variable (s)

theorem bitWrite_barred (i : Nat) (b : Bool) : Barred (bitWrite i b) s s :=
  fun closed => if_neg (by simp [closed])

theorem sendBus_barred (rs : Bool) (v : Byte) : Barred (sendBus rs v) s s := fun closed => sendBus_closed closed rs v

theorem initBody_barred : Barred initBody s s :=
  have first : Barred initRaw s s := fun closed => (bitWrite_barred s s.cfg.pinRs false).bind _ closed
  first.bind initFlags

theorem clearBody_barred : Barred clearBody s s :=
  fun closed => ((sendBus_barred s false s.cfg.cmdClear).bind _).bind _ closed

theorem homeBody_barred : Barred homeBody s s :=
  fun closed => ((sendBus_barred s false s.cfg.cmdHome).bind _).bind _ closed

theorem sendCursor_barred : Barred sendCursor s s := fun closed => sendBus_barred s false _ closed

theorem writeBody_barred (text : List Byte) : Barred (writeBody text) s s := (sendCursor_barred s).bind _

theorem setcurBody_barred (col row : Int) : Barred (setcurBody col row) s s :=
  fun closed => ((sendBus_barred s false _).bind _).bind _ closed

theorem storegBody_barred (loc : Byte) (g : Glyph) : Barred (storegBody loc g) s s :=
  fun closed => (sendBus_barred s false _).bind _ closed

theorem writegBody_barred (loc : Byte) : Barred (writegBody loc) s s := (sendCursor_barred s).bind _

/-- R180: the cached byte is loaded before the command. -/
theorem dcBody_barred (mask : Byte) (on : Bool) : Barred (dcBody mask on) s (flagDc mask on s) :=
  (sendBus_barred (flagDc mask on s) false _).of_eq rfl

theorem disponBody_barred : Barred disponBody s (flagDc s.cfg.dcD true s) := (dcBody_barred s _ true).of_eq rfl

theorem dispoffBody_barred : Barred dispoffBody s (flagDc s.cfg.dcD false s) := (dcBody_barred s _ false).of_eq rfl

theorem emBody_barred (mask : Byte) (on : Bool) : Barred (emBody mask on) s (flagEm mask on s) :=
  (sendBus_barred (flagEm mask on s) false _).of_eq rfl

theorem backlightBody_barred (on : Bool) : Barred (backlightBody on) s s := fun closed => bitWrite_barred s _ on closed

variable {s}

theorem displayOnBody_barred (off : s.displayOn = false) : Barred displayOnBody s (flagDc s.cfg.dcD true s) :=
  ((disponBody_barred s).bind _).of_eq (if_neg (by simp [off]))

theorem displayOffBody_barred (on : s.displayOn = true) : Barred displayOffBody s (flagDc s.cfg.dcD false s) :=
  ((dispoffBody_barred s).bind _).of_eq (if_pos on)

theorem backlightOnBody_barred (off : s.backlightOn = false) : Barred backlightOnBody s s :=
  ((backlightBody_barred s true).bind _).of_eq (if_neg (by simp [off]))

theorem backlightOffBody_barred (on : s.backlightOn = true) : Barred backlightOffBody s s :=
  ((backlightBody_barred s false).bind _).of_eq (if_pos on)

/-! ### The session operations, where they have a hardware step to do -/

/-- R240: the display-control byte is loaded first. -/
theorem sdispBody_barred {st : Byte} (touching : sdispTouches st s = true) :
    Barred (sdispBody st) s (beforeFirstAccess (.sdisp st) s) := by
  by_cases one : st = 1
  · subst one
    exact displayOnBody_barred (by simpa [sdispTouches] using touching)
  · have on : s.displayOn = true := (if_neg one).symm.trans touching
    have before : beforeFirstAccess (.sdisp st) s = flagDc s.cfg.dcD false s :=
      congrArg (fun dc => { s with dc := dc }) (if_neg one)
    rw [before]
    exact (displayOffBody_barred on).of_eq (if_neg one)

/-- R241: nothing is loaded. -/
theorem sblBody_barred {st : Byte} (touching : sblTouches st s = true) : Barred (sblBody st) s s := by
  by_cases one : st = 1
  · exact (backlightOnBody_barred (by simpa [sblTouches, one] using touching)).of_eq (if_pos one)
  · exact (backlightOffBody_barred ((if_neg one).symm.trans touching)).of_eq (if_neg one)

/-- R242, R264: the state in which a session write makes its first access. -/
def sessionLoaded (s : State) : State :=
  if s.displayOn then if s.backlightOn then { s with timeoutActive := false } else s else flagDc s.cfg.dcD true s

theorem beforeFirstAccess_swrite (text : List Byte) (s : State) :
    beforeFirstAccess (.swrite text) s = sessionLoaded s := rfl

theorem beforeFirstAccess_swritet (text : List Byte) (ms : Word32) (s : State) :
    beforeFirstAccess (.swritet text ms) s = sessionLoaded s := rfl

theorem sessionLoaded_begun (op : OpName) (s : State) : sessionLoaded (begun op s) = begun op (sessionLoaded s) := by
  unfold sessionLoaded
  rw [apply_ite (begun op), apply_ite (begun op)]
  rfl

/-- R242: the power-up makes the first access, or the cursor command does once the timer is cancelled. -/
theorem swriteBody_barred (text : List Byte) (free : s.timeoutActive = true → s.expBusy = false) :
    Barred (swriteBody text) s (sessionLoaded s) := by
  rw [sessionLoaded]
  split
  · next hd =>
    split
    · next hb =>
      refine (writeBody_barred { s with timeoutActive := false } text).of_eq ?_
      rw [swriteBody, powerUp, if_pos (by simp [hd, hb]), bind_ok, cancelPending_free free, bind_ok]
    · next hb =>
      have dark : powerUp s = backlightOnBody s := by rw [powerUp_eq, displayOnBody, if_pos hd, bind_ok]
      exact ((backlightOnBody_barred (by simpa using hb)).of_eq dark).bind _
  · next hd => exact (((displayOnBody_barred (by simpa using hd)).bind _).of_eq (powerUp_eq s)).bind _

end

end Sys2Proof.Machine
end

section
/-!
The complaints an operation can meet before it does anything, in the order R266, R265, R270 gives them: `Halted`,
`BadOperand`, and for one that touches port B `ConcurrentLcd`; then `DeviceNotOpen` at its first access (R264). Said
once for all 28 operations.
-/

namespace Sys2Proof.Machine

open Sys2Proof.Claims

/-- An operation that may run: it starts its body on the port and answers, or it is one atomic step. -/
def admitted (i : Instr) (body : State → Except Stop State) (result : State → Byte) (s : State) :
    Host.Outcome State Fault Refusal :=
  match touches i s with
  | none => .next (atomicOp s.issuer i s)
  | some op => conclude (startOp op s >>= fun t => body t >>= fun t => .ok (finishOp (result t) t))

/-- R266: what stands before it. -/
def screened (i : Instr) (body : State → Except Stop State) (result : State → Byte) (s : State) :
    Host.Outcome State Fault Refusal :=
  if s.halted then .next (refuse s.issuer .halted s)
  else if operandOk i then admitted i body result s
  else .next (refuse s.issuer .badOperand s)

/-- The operation is screened, and with the device closed its body stops at its first access. -/
def ComplainsInOrder (i : Instr) (s : State) : Prop :=
  ∃ body result, exec i s = screened i body result s ∧
    ∀ op, touches i s = some op → (s.timeoutActive = true → s.expBusy = false) →
      Barred body (begun op s) (begun op (beforeFirstAccess i s))

/-! ### The three forms of an operation -/

section
variable {i : Instr} {s : State} {op : OpName} {body : State → Except Stop State}

theorem lcdOp_complainsInOrder {result : State → Byte} (touch : touches i s = some op) (good : operandOk i = true)
    (run : exec i s = lcdOp op body result s)
    (closed : (s.timeoutActive = true → s.expBusy = false) →
      Barred body (begun op s) (begun op (beforeFirstAccess i s))) : ComplainsInOrder i s := by
  refine ⟨body, result, ?_, fun op' touch' free => ?_⟩
  · rw [run, screened, good, if_pos rfl, admitted, touch, lcdOp]
    cases hh : s.halted with
    | true => rw [accept_halted hh, if_pos rfl]; rfl
    | false => rw [accept_live hh, if_neg Bool.false_ne_true]; rfl
  · cases touch.symm.trans touch'
    exact closed free

theorem switchOp_complainsInOrder {touching : Bool} (touch : touches i s = if touching then some op else none)
    (idle : atomicOp s.issuer i s = respond s.issuer (.ok 0) s)
    (run : exec i s = switchOp op (operandOk i) touching body s)
    (closed : touching = true → Barred body (begun op s) (begun op (beforeFirstAccess i s))) :
    ComplainsInOrder i s := by
  refine ⟨body, noResult, ?_, fun op' touch' _ => ?_⟩
  · rw [run, screened, admitted, touch, idle, switchOp]
    cases hh : s.halted with
    | true => rw [accept_halted hh, if_pos rfl]; rfl
    | false =>
      rw [accept_live hh, if_neg Bool.false_ne_true]
      cases operandOk i with
      | false => rfl
      | true => cases touching <;> rfl
  · cases touching with
    | false => cases touch.symm.trans touch'
    | true =>
      cases touch.symm.trans touch'
      exact closed rfl

theorem unlessHalted_complainsInOrder {f : State → State} (touch : touches i s = none)
    (run : exec i s = .next (unlessHalted s.issuer f s)) (atomic : f s = atomicOp s.issuer i s)
    (bad : operandOk i = false → f s = refuse s.issuer .badOperand s) : ComplainsInOrder i s := by
  refine ⟨.ok, noResult, ?_, fun _ touch' => nomatch touch.symm.trans touch'⟩
  rw [run, screened, admitted, touch, unlessHalted]
  cases hh : s.halted with
  | true => rfl
  | false =>
    cases good : operandOk i with
    | false => exact congrArg Host.Outcome.next (bad good)
    | true => exact congrArg Host.Outcome.next atomic

end

/-- R211, R212: an operand without a key is refused. -/
theorem registerOp_badOperand {key : Option Nat} (bad : key.isSome = false) (c : Ctx) (h : Byte) (s : State) :
    registerOp c key h s = refuse c .badOperand s := by
  cases key with
  | none => rfl
  | some a => cases bad

/-! ### All operations -/

theorem exec_complainsInOrder (i : Instr) (s : State) : ComplainsInOrder i s := by
  cases i with
  | init => exact lcdOp_complainsInOrder rfl rfl rfl fun _ => initBody_barred _
  | write text => exact lcdOp_complainsInOrder rfl rfl rfl fun _ => writeBody_barred _ text
  | setcur col row => exact lcdOp_complainsInOrder rfl rfl rfl fun _ => setcurBody_barred _ col row
  | clear => exact lcdOp_complainsInOrder rfl rfl rfl fun _ => clearBody_barred _
  | home => exact lcdOp_complainsInOrder rfl rfl rfl fun _ => homeBody_barred _
  | dispon => exact lcdOp_complainsInOrder rfl rfl rfl fun _ => disponBody_barred _
  | dispoff => exact lcdOp_complainsInOrder rfl rfl rfl fun _ => dispoffBody_barred _
  | curon => exact lcdOp_complainsInOrder rfl rfl rfl fun _ => dcBody_barred _ s.cfg.dcC true
  | curoff => exact lcdOp_complainsInOrder rfl rfl rfl fun _ => dcBody_barred _ s.cfg.dcC false
  | blinkon => exact lcdOp_complainsInOrder rfl rfl rfl fun _ => dcBody_barred _ s.cfg.dcB true
  | blinkoff => exact lcdOp_complainsInOrder rfl rfl rfl fun _ => dcBody_barred _ s.cfg.dcB false
  | blon => exact lcdOp_complainsInOrder rfl rfl rfl fun _ => backlightBody_barred _ true
  | bloff => exact lcdOp_complainsInOrder rfl rfl rfl fun _ => backlightBody_barred _ false
  | ascron => exact lcdOp_complainsInOrder rfl rfl rfl fun _ => emBody_barred _ s.cfg.emS true
  | ascroff => exact lcdOp_complainsInOrder rfl rfl rfl fun _ => emBody_barred _ s.cfg.emS false
  | ltr => exact lcdOp_complainsInOrder rfl rfl rfl fun _ => emBody_barred _ s.cfg.emId true
  | rtl => exact lcdOp_complainsInOrder rfl rfl rfl fun _ => emBody_barred _ s.cfg.emId false
  | storeg loc g => exact lcdOp_complainsInOrder rfl rfl rfl fun _ => storegBody_barred _ loc g
  | writeg loc => exact lcdOp_complainsInOrder rfl rfl rfl fun _ => writegBody_barred _ loc
  | regs index h => exact unlessHalted_complainsInOrder rfl rfl rfl fun bad => registerOp_badOperand bad _ h s
  | regc h indices => exact unlessHalted_complainsInOrder rfl rfl rfl fun bad => registerOp_badOperand bad _ h s
  | setint ms =>
    exact unlessHalted_complainsInOrder rfl rfl rfl fun bad => if_pos (by simpa [operandOk] using bad)
  | pollstart => exact unlessHalted_complainsInOrder rfl rfl rfl nofun
  | pollstop => exact unlessHalted_complainsInOrder rfl rfl rfl nofun
  | swrite text =>
    exact lcdOp_complainsInOrder rfl rfl rfl fun free => by
      rw [beforeFirstAccess_swrite, ← sessionLoaded_begun]
      exact swriteBody_barred text (by exact free)
  | swritet text ms =>
    exact lcdOp_complainsInOrder rfl rfl rfl fun free => by
      rw [beforeFirstAccess_swritet, ← sessionLoaded_begun]
      exact (swriteBody_barred text (by exact free)).bind _
  | sdisp st =>
    exact switchOp_complainsInOrder rfl rfl rfl fun touching => sdispBody_barred (s := begun .sdisp s) touching
  | sbl st => exact switchOp_complainsInOrder rfl rfl rfl fun touching => sblBody_barred (s := begun .sbl s) touching

section
variable {i : Instr} {s : State} {op : OpName}

/-- R263, R266: `Halted` first. -/
theorem exec_halted (i : Instr) (halted : s.halted = true) : exec i s = .next (refuse s.issuer .halted s) := by
  obtain ⟨body, result, run, -⟩ := exec_complainsInOrder i s
  rw [run, screened, if_pos halted]

/-- R266: then `BadOperand`. -/
theorem exec_badOperand (live : s.halted = false) (bad : operandOk i = false) :
    exec i s = .next (refuse s.issuer .badOperand s) := by
  obtain ⟨body, result, run, -⟩ := exec_complainsInOrder i s
  rw [run, screened, if_neg (by simp [live]), if_neg (by simp [bad])]

/-- R265, R264: then an operation that touches port B starts its body, which stops at its first access if the device is
closed. -/
theorem exec_touching (live : s.halted = false) (good : operandOk i = true) (touch : touches i s = some op) :
    ∃ (body : State → Except Stop State) (result : State → Byte),
      exec i s = conclude (startOp op s >>= fun t => body t >>= fun t => .ok (finishOp (result t) t)) ∧
      ((s.timeoutActive = true → s.expBusy = false) → Barred body (begun op s) (begun op (beforeFirstAccess i s))) := by
  obtain ⟨body, result, run, closed⟩ := exec_complainsInOrder i s
  refine ⟨body, result, ?_, closed op touch⟩
  rw [run, screened, if_neg (by simp [live]), if_pos good, admitted, touch]

/-- R265: the operation is turned away by the activity in flight. -/
theorem exec_overlapping {a : Agent} {inFlight : OpName} {n : Nat} (live : s.halted = false)
    (good : operandOk i = true) (touch : touches i s = some op) (busy : s.seq = .busy a inFlight n) :
    exec i s = .next (raiseFault (.host s.issuer) (.concurrentLcd op inFlight) s) := by
  obtain ⟨body, result, run, -⟩ := exec_touching live good touch
  rw [run, startOp, startLcd_busy busy]
  rfl

/-- R265: as a step of another agent it goes alike. -/
theorem overlapped_touching {a : Agent} {inFlight : OpName} {n : Nat} (c : Ctx) (live : s.halted = false)
    (good : operandOk i = true) (touch : touches i s = some op) (busy : s.seq = .busy a inFlight n) :
    overlapped c i s = raiseFault (.host c) (.concurrentLcd op inFlight) s := by
  rw [overlapped, if_neg (by simp [live]), if_pos good, touch, busy]

theorem act_packet {c : Ctx} {bytes : List Byte} (may : packetBreach c s = none) (h : decode bytes = .ok i) :
    act (.packet c bytes) s = .ok (overlapped c i s) := by
  simp only [act, may, h]

end

/-! ### Operand domains -/

theorem operandOk_regs {index h : Byte} :
    operandOk (.regs index h) = true ↔ 1 ≤ index.toNat ∧ index.toNat ≤ 8 := by
  rw [operandOk, Option.isSome_iff_exists]
  exact ⟨fun ⟨_, key⟩ => (singleKey_eq_some.mp key).1, fun legal => ⟨_, singleKey_eq_some.mpr ⟨legal, rfl⟩⟩⟩

theorem operandOk_regc {h : Byte} {indices : List Byte} :
    operandOk (.regc h indices) = true ↔ comboSum indices ≤ 254 := by
  rw [operandOk, Option.isSome_iff_exists]
  exact ⟨fun ⟨_, key⟩ => (comboKey_eq_some.mp key).1, fun legal => ⟨_, comboKey_eq_some.mpr ⟨legal, rfl⟩⟩⟩

/-! ### The statements -/

/-- Settles O40. -/
theorem haltedBlockRefuses : Obligations.HaltedBlockRefuses := fun i _ halted => exec_halted i halted

/-- Settles O41: each of the operands fails `operandOk`. -/
theorem outOfDomainOperandsRefused : Obligations.OutOfDomainOperandsRefused := by
  intro i s live outside
  refine exec_badOperand live ?_
  rcases outside with ⟨n, h, rfl, hn⟩ | ⟨h, l, rfl, hl⟩ | rfl | ⟨st, hst, rfl | rfl⟩
  · exact Bool.eq_false_iff.mpr fun good => by have := operandOk_regs.mp good; omega
  · rw [← comboSum_eq_sum] at hl
    exact Bool.eq_false_iff.mpr fun good => (operandOk_regc.mp good).not_gt hl
  · rfl
  · exact decide_eq_false hst.not_ge
  · exact decide_eq_false hst.not_ge

/-- Settles O42: the woven packet and `exec` raise alike. -/
theorem overlapIsConcurrentLcd : Obligations.OverlapIsConcurrentLcd := by
  refine ⟨fun c bytes i s op inFlight a n live may decoded good touch busy => ?_,
    fun i s op inFlight a n live good touch busy => exec_overlapping live good touch busy⟩
  rw [act_packet may decoded, overlapped_touching c live good touch busy]
  rfl

/-- What an operation loads before its first access is in `DC`, `EM` and the pending flag. -/
theorem beforeFirstAccess_frame (i : Instr) (s : State) :
    ∃ dc em pending, beforeFirstAccess i s = { s with dc := dc, em := em, timeoutActive := pending } := by
  have session : ∃ dc em pending, sessionLoaded s = { s with dc := dc, em := em, timeoutActive := pending } := by
    unfold sessionLoaded
    split_ifs <;> exact ⟨_, _, _, rfl⟩
  cases i
  case swrite => exact session
  case swritet => exact session
  all_goals exact ⟨_, _, _, rfl⟩

/-- R264, R271: the raise of a host operation at its first access, from the state `u` of its loads. -/
theorem raiseFault_closed (op : OpName) {u : State} (idle : u.seq = .idle) :
    raiseFault (ownerOf (begun op u)) (notOpenOf (begun op u)) (begun op u) = { u with
      fault := u.fault.or (some .deviceNotOpen)
      raises := u.raises ++ [.deviceNotOpen op 0]
      trace := u.trace ++ [.resp u.issuer (.fault .deviceNotOpen)] } := by
  have owner : ownerOf (begun op u) = .host u.issuer := ownerOf_host ⟨_, _, rfl⟩ (agentOf_ne_offt _)
  have raised : notOpenOf (begun op u) = .deviceNotOpen op 0 := rfl
  rw [owner, raised, raiseFault_host_notOpen]
  simp only [respond, emit, recordFault, begun, raisedCode, ← idle]

/-- Settles O44: the operation starts, and its body stops at its first access. -/
theorem closedDeviceFaults : Obligations.ClosedDeviceFaults := by
  intro i s op live good touch idle closed free
  obtain ⟨body, result, run, barred⟩ := exec_touching live good touch
  obtain ⟨dc, em, pending, loads⟩ := beforeFirstAccess_frame i s
  rw [loads] at barred ⊢
  have stopped : body (begun op s) = _ := barred free closed
  have started : startOp op s = .ok (begun op s) := startLcd_idle idle
  rw [run, started, bind_ok, stopped, raiseFault_closed op (by exact idle)]
  rfl

end Sys2Proof.Machine
end

section
/-!
A halted block (R263, R266, R219): with no tick in flight every step but a reset answers a packet `Halted`, changes the
environment, or does nothing.
-/

namespace Sys2Proof.Machine

/-- Only the environment, the schedule and the issuer changed, and packets were answered `Halted`. -/
def Stays (s t : State) : Prop :=
  t = { s with
    sw := t.sw
    devOpen := t.devOpen
    trace := t.trace
    weave := t.weave
    agenda := t.agenda
    issuer := t.issuer } ∧
    ∃ es, t.trace = s.trace ++ es ∧ ∀ e ∈ es, ∃ c, e = .resp c (.refused .halted)

/-- R266: a packet's answer. -/
theorem refuse_stays (c : Ctx) (s : State) : Stays s (refuse c .halted s) := ⟨rfl, [_], rfl, by simp⟩

theorem Stays.silent {s t : State} (h : t = { s with sw := t.sw, devOpen := t.devOpen }) : Stays s t := by
  rw [h]
  exact ⟨rfl, [], (List.append_nil _).symm, nofun⟩

theorem Stays.refl (s : State) : Stays s s := .silent rfl

section
variable {s : State} (halted : s.halted = true)
include halted

theorem refusePacket_halted (c : Ctx) (e : DecodeError) : refusePacket c e s = refuse c .halted s := by
  rw [refusePacket, if_pos halted]

theorem overlapped_halted (c : Ctx) (i : Instr) : overlapped c i s = refuse c .halted s := if_pos halted

theorem polltStep_halted (readOk : Bool) : polltStep readOk s = s := if_pos halted

theorem expiryCollides_halted : expiryCollides s = s := if_neg (by simp [halted])

theorem expire_halted : expire s = .next s := if_neg (by simp [halted])

/-- R263: no wait is lifted. -/
theorem resume_halted (c : Ctx) : resume c s = s := by
  unfold resume
  split
  · rfl
  · exact if_pos (by simp [halted])

/-- Any step but a reset. -/
theorem act_stays {a : Act} {t : State} (idle : s.tick = .idle) (h : act a s = .ok t) : Stays s t := by
  cases a with
  | packet c bytes =>
    simp only [act, overlapped_halted halted, refusePacket_halted halted] at h
    split at h
    · cases h
    · split at h <;> cases h <;> exact refuse_stays c s
  | pollt readOk => cases h; rw [polltStep_halted halted]; exact .refl s
  | hret ok =>
    simp only [act, idle] at h
    cases h
  | offt => cases h; rw [expiryCollides_halted halted]; exact .refl s
  | resume c => cases h; rw [resume_halted halted]; exact .refl s
  | switches v => cases h; exact .silent rfl
  | openDevice ok => cases h; exact .silent rfl
  | closeDevice =>
    simp only [act] at h
    split_ifs at h
    cases h
    exact .silent rfl
  | reset powerOn => cases h

end

/-- The turn that is taken is no reset. -/
theorem not_reset_of_nextNoReset {s : State} {turn : Turn} {rest : List Turn} (h : nextNoReset s = true)
    (hs : s.agenda = turn :: rest) : isReset turn.act = false := by
  rw [nextNoReset, hs] at h
  simp only [Turn.noReset, Bool.and_eq_true, Bool.not_eq_true'] at h
  exact h.1

/-- Settles O53: whatever the turn is, its step is one that `Stays` covers, from the state with the turn taken. -/
theorem haltedBlockStaysHalted : Obligations.HaltedBlockStaysHalted := by
  rintro s t ⟨-, -, faulted, -⟩ halted noReset h
  have idle : s.tick = .idle := (faulted halted).2
  have stays : Stays s t := by
    rcases step_stepped h with rfl | ⟨turn, rest, hs, c, i, free, h⟩ | ⟨turn, rest, c, e, rfl⟩ | ⟨turn, rest, hs, h⟩ |
      ⟨turn, rest, hs, h⟩
    · exact .refl t
    · rw [exec_halted i (by exact halted)] at h
      cases h
      exact refuse_stays c { beginTurn turn rest s with issuer := c }
    · rw [refusePacket_halted (by exact halted)]
      exact refuse_stays c (beginTurn turn rest s)
    · rw [expire_halted (by exact halted)] at h
      cases h
      exact Stays.refl (beginTurn turn rest s)
    · rcases conclude_next.mp h with h | h
      · exact act_stays (s := beginTurn turn rest s) halted idle h
      · exact absurd h (act_not_ended (not_reset_of_nextNoReset noReset hs))
  exact stays

end Sys2Proof.Machine
end
